-- ==== Sys2Proof/Word.lean ====
section
/-! DEFINITION. The plain numbers the manual uses: bytes, station, zone, output and slot numbers, round numbers and audio samples. -/

namespace Sys2Proof

/-- One byte of a message, a slot, an image or a preset sector. -/
abbrev Byte := BitVec 8

/-- A station number, 0 to 7 (introduction, section 5). -/
abbrev Station := Fin 8

/-- A zone, 0 to 3. -/
abbrev Zone := Fin 4

/-- A loudspeaker output, 0 to 3. -/
abbrev OutputNo := Fin 4

/-- An audio slot of a round, 0 to 23. -/
abbrev SlotNo := Fin 24

/-- A round number, 0 to 65535; 65535 is followed by 0 (R3). -/
abbrev RoundNo := BitVec 16

/-- The local sample counter in units of 1/256 sample, modulo 2^32 (R10). -/
abbrev Counter := BitVec 32

/-- One audio sample of a link slot: 24 bits, two's complement (13.2). -/
abbrev Sample := BitVec 24

/-- A set of speaker roles, one bit per role, FL in bit 7 down to BR in bit 0, as the layout byte of a packed block has it (13.2). -/
abbrev RoleSet := BitVec 8

end Sys2Proof
end

