-- ==== Sys2Proof/Syntax.lean ====
section
/-! DEFINITION. The names the manual fixes (sources, kinds, roles, modes, states) and the commands of the part:
one constructor of Instr for each row of spec/opcode_table.json, with the operands that the event brings from outside the part. -/

namespace Sys2Proof

/-- The source letter of a stream: digital input A, digital input B, tuner T. -/
inductive Source where
  | a | b | t
deriving DecidableEq, Repr, Inhabited

/-- One of the two digital inputs. -/
inductive InputId where
  | a | b
deriving DecidableEq, Repr, Inhabited

/-- The kind of a stream. -/
inductive Kind where
  | pcm2 | packed
deriving DecidableEq, Repr, Inhabited

/-- A published source: station number and source letter. -/
structure Stream where
  station : Station
  source : Source
deriving DecidableEq, Repr, Inhabited

/-- The speaker roles, in role order. -/
inductive Role where
  | fl | fr | c | lfe | sl | sr | bl | br
deriving DecidableEq, Repr, Inhabited

/-- The health an output announces (R38). -/
inductive Health where
  | ok | faulted | retired
deriving DecidableEq, Repr, Inhabited

/-- The station modes of chapter 3. -/
inductive Mode where
  | joining | active | serving | standby
deriving DecidableEq, Repr, Inhabited

/-- The listening mode of a zone record. -/
inductive ListeningMode where
  | stereo | surround | direct
deriving DecidableEq, Repr, Inhabited

/-- The radio bands. -/
inductive Band where
  | fm | am
deriving DecidableEq, Repr, Inhabited

/-- The direction of a SEEK. -/
inductive Direction where
  | up | down
deriving DecidableEq, Repr, Inhabited

/-- The two causes that hold the part in reset (R186). -/
inductive ResetCause where
  | powerOn | nReset
deriving DecidableEq, Repr, Inhabited

/-- What the link carries at the moment a mark of this station falls due (R7, R9). -/
inductive LinkAtSend where
  /-- The link is quiet: the mark goes out alone. -/
  | quiet
  /-- The opening of another station's mark is already on the link (R7). -/
  | opening
  /-- Another station begins its mark at the same moment (R9). -/
  | contended (other : Station)
deriving DecidableEq, Repr, Inhabited

/-- The order in which a ramp step and a go change of one round begin are taken (R129: either may be taken first). -/
inductive RampOrder where
  | stepFirst | changeFirst
deriving DecidableEq, Repr, Inhabited

/-- The rate classes of a digital input (section 6.2). -/
inductive RateClass where
  | r32 | r441 | r48 | r96 | other
deriving DecidableEq, Repr, Inhabited

/-- A change of a power stage's fault line. -/
inductive FaultEdge where
  | asserts
  | releases
  /-- An assertion that falls at the round begin just made: the end of recovery made there sees the line asserted (R137). -/
  | assertsAtRoundBegin
  /-- An assertion that falls at the coming round begin and is taken before its steps (R136, R137). -/
  | assertsAheadOfRoundBegin
deriving DecidableEq, Repr, Inhabited

/-- The arbitration field of a position: class, then sender (R20). -/
structure ArbField where
  cls : BitVec 3
  sender : Station
deriving DecidableEq, Repr, Inhabited

/-- What one digital input has delivered in the round that ends at a round begin. -/
structure InputRound where
  /-- The mean frame rate measured over the round, in thousandths of a hertz; none where no measurement is made (R94). -/
  meanRate : Option Nat
  /-- The input frames received in the round, oldest first: first channel, second channel (R98). -/
  frames : List (Sample × Sample)
deriving DecidableEq, Repr, Inhabited

/-- What the tuner front-end port has delivered since the last round begin, or since a later gate close (R144, R148). -/
structure FrontEnd where
  /-- Rising edges of the IF. -/
  edges : Nat
  /-- The level readings, one per local sample period, each 0 to 127. -/
  levels : List (BitVec 7)
  /-- Whether the demodulator reported the pilot tone throughout. -/
  pilot : Bool
deriving DecidableEq, Repr, Inhabited

/-- What the demodulator has produced in the round that ends at a round begin (R149). -/
structure Demodulated where
  stereo : List (Sample × Sample)
  mono : List Sample
deriving DecidableEq, Repr, Inhabited

/-- The operands of a round begin: the mark as this station hears it, the local time since the previous capture,
and what the inputs and the front end have delivered in the round that ends here. -/
structure RoundBegin where
  /-- The sender field of the mark, as read from the link. -/
  sender : BitVec 3
  /-- Bytes 0 to 4 of the mark's body (13.2), as read from the link. -/
  body : List Byte
  /-- Local time since the previous capture, in units of 1/256 sample of the trimmed local clock (R10, R11). -/
  elapsed : Nat
  rampOrder : RampOrder
  inputA : InputRound
  inputB : InputRound
  frontEnd : FrontEnd
  demodulated : Demodulated
deriving DecidableEq, Repr, Inhabited

/-- The commands of the part. Each is one step of the manual's table of operations and events, whole and indivisible.
A taken message carries its sender (read from the arbitration field) and its payload bytes (13.2). -/
inductive Instr where
  | roundBegin (r : RoundBegin)
  | senderMarkDue (link : LinkAtSend)
  | takeoverTimerExpiry (link : LinkAtSend)
  | holdoverExpiry
  | messageVoided (field : ArbField) (received : List Byte)
  | claim (sender : Station) (payload : List Byte)
  | release (sender : Station) (payload : List Byte)
  | zoneSet (sender : Station) (payload : List Byte)
  | zoneState (sender : Station) (payload : List Byte)
  | roleMap (sender : Station) (payload : List Byte)
  | tune (sender : Station) (payload : List Byte)
  | seek (sender : Station) (payload : List Byte)
  | scan (sender : Station) (payload : List Byte)
  | presetRecall (sender : Station) (payload : List Byte)
  | presetStore (sender : Station) (payload : List Byte)
  | presetClear (sender : Station) (payload : List Byte)
  | presetRead (sender : Station) (payload : List Byte)
  | listRead (sender : Station) (payload : List Byte)
  | statusQuery (sender : Station) (payload : List Byte)
  | presence (sender : Station) (payload : List Byte)
  | reply (sender : Station) (payload : List Byte)
  | listPage (sender : Station) (payload : List Byte)
  | presetData (sender : Station) (payload : List Byte)
  | status (sender : Station) (payload : List Byte)
  | unknownKind (field : ArbField) (code : BitVec 5)
  | slotEnd (slot : SlotNo) (heard : List Byte)
  | slotExpiry (slot : SlotNo)
  | watchdogExpiry
  | peerAbsence (station : Station)
  | rampUpComplete (output : OutputNo)
  | rampDownComplete (output : OutputNo)
  | outputFault (output : OutputNo) (edge : FaultEdge)
  | faultRecoveryEnd (output : OutputNo)
  | overloadDecay (output : OutputNo)
  | supplyMoveToLow
  | supplyMoveToNormal
  | muteLineAssert
  | muteLineRelease
  | clockGained (input : InputId)
  | clockLost (input : InputId)
  | acquiringEnd (input : InputId)
  | syncPattern (input : InputId) (counter : Byte)
  | syncLost (input : InputId)
  | blockCompletion (input : InputId) (block : List Byte)
  | settleEnd
  | gateClose (elapsed : Nat) (frontEnd : FrontEnd)
  | unheldTimeout
  | readSuspendDelayEnd
  | readComplete
  | programmingCommit
  | supersedingEnd
  | erasingEnd
  | copyingEnd
  | headerEnd
  | reset (cause : ResetCause)
  | leaveReset (cause : ResetCause) (straps : Station)
  | imageRead (image : List Byte)
  | recoveryEnd
  | joinStart
  | joinWindowEnd
  | carrierBoundary
deriving DecidableEq, Repr, Inhabited

end Sys2Proof
end

