-- ==== Sys2Proof/Config.lean ====
section
/-! DEFINITION. The free values: constants without a body that stand for what the manual leaves open. Each is applied to the counter
freeDraws of the state, so that two draws need not agree, but for the rate converter's, which are applied to what R98 makes them depend on.
Nothing in the model can evaluate them. -/

namespace Sys2Proof

/-- The bytes a sector holds after an ERASING step was cut short by a reset (R175: "may hold slots in any state"). -/
opaque Config.residueByte (draw slot byte : Nat) : Byte

/-- The tenths of a millisecond left in a step at the moment a read suspends it (R173): the commands carry no store time. -/
opaque Config.remainingAtSuspend (draw : Nat) : Nat

/-- The zone in the requester of a REPLY to a request whose requester zone is absent or not 0 to 3: the field has two bits and the manual
states no value for it. -/
opaque Config.unstatedRequesterZone (draw : Nat) : Zone

/-- The numerator of the IF offset of a gate in which no local time passed: the manual's quotient has no value there (R148). -/
opaque Config.unstatedOffset (draw : Nat) : Int

/-- The level of a gate in which no reading was taken: the manual's mean has no value there (R148). -/
opaque Config.unstatedLevel (draw : Nat) : BitVec 7

/-- Sample i of the samples that the rate converter produces for one channel in a round, from its memory, the held class, the trim, the measured
rate in thousandths of a hertz and the channel's input samples of the round: R98 names the conversion and gives no arithmetic for it. -/
opaque Config.convertedSample (history : Nat) (cls : Option RateClass) (trim : Int) (rate : Option Nat) (frames : List Sample) (i : Nat) : Sample

/-- The memory of the rate converter for one channel after a round, from the same (R98). -/
opaque Config.converterMemory (history : Nat) (cls : Option RateClass) (trim : Int) (rate : Option Nat) (frames : List Sample) : Nat

/-- The capture-round byte of a slot sent while the round number is unknown (R65 gives it from a known number). -/
opaque Config.unstatedCaptureRound (draw : Nat) : Byte

/-- A data byte of an unmuted slot whose capture had no block: the manual gives its flag (13.2, R100) and no data. -/
opaque Config.unstatedBlockByte (draw byte : Nat) : Byte

end Sys2Proof
end

