-- ==== Sys2Proof/Machine/State.lean ====
section
/-! DEFINITION. The state of the part, block by block as section 3 of the introduction lists the blocks, and the state after reset. -/

namespace Sys2Proof.Machine

/-! ## Round Timer -/

/-- The discipline states (R12 to R16). -/
inductive Discipline where
  | free | acquiring | locked | holdover
deriving DecidableEq, Repr, Inhabited

/-- Whether the takeover timer runs, and from which moment it counts (R6). -/
inductive Takeover where
  | stopped | fromMark | fromJoin
deriving DecidableEq, Repr, Inhabited

/-- The mark this station has put on the link and that its next round begin opens (R3 to R6). -/
structure OutgoingMark where
  number : RoundNo
  d : Nat
  /-- Sent at the sender's 48-sample point (R5), not at a takeover. -/
  periodic : Bool
deriving DecidableEq, Repr, Inhabited

structure RoundTimer where
  counter : Counter
  prevCapture : Option Counter
  takeover : Takeover
  roundNumber : Option RoundNo
  currentSender : Option Station
  isSender : Bool
  /-- The station, while the sender, has lost arbitration to another station's mark, which its next round begin hears (R9, R16). -/
  lostAsSender : Bool
  outgoing : Option OutgoingMark
  adoptedD : Nat
  discipline : Discipline
  goodRun : Nat
  holdover : Nat
  /-- HOLDOVER was entered between round begins: the next round begin adds nothing to the holdover count (R15). -/
  holdoverFresh : Bool
  trim : Int
  /-- A round has begun at the station since the last reset (R19, R23, R25). -/
  roundBegun : Bool
deriving DecidableEq, Repr, Inhabited

/-! ## Zone Table records (also carried by ZONE STATE) -/

structure ZoneRecord where
  program : Option Stream
  listening : ListeningMode
  volume : Nat
  mute : Bool
  standby : Bool
deriving DecidableEq, Repr, Inhabited

/-- The marks of R81: the fields that a ZONE SET has written while joining. -/
structure ZoneMarks where
  program : Bool
  listening : Bool
  volume : Bool
  mute : Bool
  standby : Bool
deriving DecidableEq, Repr, Inhabited

/-- The effective output of a role: station and output index (R83). -/
structure Holder where
  station : Station
  output : OutputNo
deriving DecidableEq, Repr, Inhabited

structure ZoneTable where
  records : Vector ZoneRecord 4
  marks : Vector ZoneMarks 4
  holders : Vector (Option Holder) 8
deriving DecidableEq, Repr

/-! ## Outputs -/

/-- The output states of section 8.2, in the order in which STATUS numbers them. -/
inductive OutState where
  | off | silent | rampUp | playing | rampDown | faulted | retired
deriving DecidableEq, Repr, Inhabited

/-- The role status of R85. -/
inductive RoleStatus where
  | effective | duplicate | none
deriving DecidableEq, Repr, Inhabited

/-- The steps of the coming round begin that a command has made at an output already, or that a fault taken first at it leaves out (R129, R134,
R136). -/
structure OutputSteps where
  ramp : Bool
  decay : Bool
  recovery : Bool
deriving DecidableEq, Repr, Inhabited

structure OutputRecord where
  roleStatus : RoleStatus
  state : OutState
  ramp : Nat
  atten : Nat
  overload : Nat
  decay : Nat
  recovery : Nat
  /-- Recovery ended at the last round begin (1), or by a command that stands for the coming one (2): a fault that falls at that round begin
  counts (R137). -/
  recovered : Nat
  width : Nat
  /-- The enable line of the power stage (R126). -/
  enabled : Bool
  taken : OutputSteps
deriving DecidableEq, Repr, Inhabited

structure OutputModulators where
  outputs : Vector OutputRecord 4
  /-- Carrier boundaries since the round begin (R141, R142). -/
  carrier : Nat
deriving DecidableEq, Repr

inductive SupplyLevel where
  | normal | low
deriving DecidableEq, Repr, Inhabited

/-! ## Tuner -/

inductive TunerState where
  | off | settling | measuring | listening
deriving DecidableEq, Repr, Inhabited

inductive OpKind where
  | tune | seek | scan | recall
deriving DecidableEq, Repr, Inhabited

inductive Stage where
  | tuning | stepping | returning | ending | awaiting
deriving DecidableEq, Repr, Inhabited

/-- The station and zone a reply goes to (R179). -/
structure Requester where
  station : Station
  zone : Zone
deriving DecidableEq, Repr, Inhabited

structure Operation where
  kind : OpKind
  requester : Requester
  direction : Direction
  start : Nat
  band : Band
  preset : Nat
  stage : Stage
  /-- The channel whose measurement the operation waits for; none while a RECALL awaits its record. -/
  target : Option Nat
deriving DecidableEq, Repr, Inhabited

/-- The working values of the gate in progress (R148). -/
structure Gate where
  ifStart : Nat
  counterStart : Counter
  levelSum : Nat
  readings : Nat
  pilot : Bool
  /-- Rounds left of the gate. -/
  left : Nat
deriving DecidableEq, Repr, Inhabited

/-- The IF offset of a closed gate in kHz, as the fraction num/den (R148). -/
structure Offset where
  num : Int
  den : Nat
deriving DecidableEq, Repr, Inhabited

structure StationEntry where
  freq : Nat
  level : Nat
deriving DecidableEq, Repr, Inhabited

structure StationList where
  entries : List StationEntry
  complete : Bool
deriving DecidableEq, Repr, Inhabited

/-- The state, band and pilot with which a round ended at the tuner (R149). -/
structure TunerEnd where
  state : TunerState
  band : Band
  pilot : Bool
deriving DecidableEq, Repr, Inhabited

/-- The steps of the coming round begin that a command has made at the tuner already: the phase or gate count, and the unheld count, which starts
from 0 at the end of an operation there (R147, R151). -/
structure TunerSteps where
  phase : Bool
  unheld : Bool
deriving DecidableEq, Repr, Inhabited

structure Tuner where
  state : TunerState
  band : Band
  freq : Nat
  phase : Nat
  gate : Gate
  level : Nat
  offset : Offset
  pilot : Bool
  op : Option Operation
  holders : List Zone
  fmList : StationList
  amList : StationList
  unheld : Nat
  /-- The free-running count of IF edges (R144). -/
  ifCount : Nat
  /-- The frequency word driven to the front end; none in OFF (R144). -/
  freqWord : Option (Band × Nat)
  /-- The tuner state changed since the last round begin (R149). -/
  changed : Bool
  /-- How the round ended, where a command has made the step of the coming round begin already (R149). -/
  ended : Option TunerEnd
  taken : TunerSteps
deriving DecidableEq, Repr, Inhabited

/-! ## Decoder, receiver -/

/-- The decoder states, in the order in which STATUS numbers them. -/
inductive DecoderState where
  | off | hunt | confirm | locked | conceal
deriving DecidableEq, Repr, Inhabited

/-- A channel frame (R105, R116). The value of a sample of a channel present is
the integer held, divided by 2^24, times 10 to the power gain80/80; a channel absent counts as zero (R123). -/
structure Frame where
  gain80 : Int
  channels : Vector (Option (List Int)) 8
deriving DecidableEq, Repr

structure Decoder where
  state : DecoderState
  reference : Option (Byte × RoleSet)
  confirmed : Option RoleSet
  candidate : Option RoleSet
  conceal : Nat
  lastGood : Option Frame
deriving DecidableEq, Repr

inductive ReceiverState where
  | idle | filling | running | lost
deriving DecidableEq, Repr, Inhabited

inductive EntryStatus where
  | valid | muted | missing
deriving DecidableEq, Repr, Inhabited

/-- One entry of the receive ring (section 4.4). -/
structure RingEntry where
  round : Option RoundNo
  status : EntryStatus
  kind : Option Kind
  noBlock : Bool
  /-- The data of the run's slots, in run order. -/
  data : List (List Byte)
deriving DecidableEq, Repr, Inhabited

/-- What a slot of the subscribed stream's run brought in this round (R68). -/
structure GatheredSlot where
  kind : Kind
  start : SlotNo
  part : Nat
  /-- A valid header that names the stream with the table's kind and the right part. -/
  good : Bool
  muted : Bool
  noBlock : Bool
  data : List Byte
deriving DecidableEq, Repr, Inhabited

structure Receiver where
  subscription : Option Stream
  /-- The held target: absent, or a program (a stream or NONE) to switch to (R72). -/
  target : Option (Option Stream)
  ring : Vector RingEntry 8
  watchdog : Nat
  programKind : Option Kind
  state : ReceiverState
  /-- The round of the entry that ended LOST and is the lead of FILLING (R71). -/
  lead : Option RoundNo
  /-- The samples of the previous presented PCM2 round (R70). -/
  lastPairs : List (Sample × Sample)
  gathered : List GatheredSlot
deriving DecidableEq, Repr

/-! ## Matrix -/

/-- The coefficients a built matrix can hold (R118). -/
inductive Coef where
  | zero | half | root | one
deriving DecidableEq, Repr, Inhabited

/-- A matrix with the layout and the effective set it was built from; row, then column, in role order. -/
structure Matrix where
  layout : RoleSet
  effective : RoleSet
  rows : Vector (Vector Coef 8) 8
deriving DecidableEq, Repr

structure MixMatrix where
  active : Matrix
  pending : Matrix
  dirty : Bool
  /-- The swap of the coming round begin has been made: the pending matrix belongs to that round begin, and waits for the next (R121). -/
  swapped : Bool
  /-- The channel frame of the round (R123). -/
  frame : Frame
deriving DecidableEq, Repr

/-! ## Peers -/

/-- The role and health announced for one output; none is the role NONE. -/
structure Announcement where
  role : Option Role
  health : Health
deriving DecidableEq, Repr, Inhabited

/-- A present entry of the peer table (R34). -/
structure PeerEntry where
  zone : Zone
  mode : Mode
  outputs : Vector Announcement 4
  silence : Nat
deriving DecidableEq, Repr

structure PeerTable where
  entries : Vector (Option PeerEntry) 8
  mode : Mode
  joinCount : Nat
  /-- PRESENCE contents carry the joining flag (R38). -/
  joinFlag : Bool
  /-- The first PRESENCE after reset has been offered (R189). -/
  firstOffered : Bool
  /-- An offer of PRESENCE made within the event in progress; clear between events. -/
  presenceDue : Bool
deriving DecidableEq, Repr

/-! ## Messages of the transmit queue -/

/-- The content of a PRESENCE (R38). -/
structure PresenceContent where
  zone : Zone
  mode : Mode
  configInvalid : Bool
  joining : Bool
  outputs : Vector Announcement 4
  kindA : Option Kind
  kindB : Option Kind
  kindT : Option Kind
deriving DecidableEq, Repr

/-- The content of a STATUS (R184). -/
structure StatusContent where
  conditions : BitVec 24
  mode : Mode
  clock : Discipline
  tuner : TunerState
  band : Band
  freq : Nat
  level : Nat
  pilot : Bool
  decoder : DecoderState
  receiver : ReceiverState
  outputs : Vector OutState 4
deriving DecidableEq, Repr

/-- The ten request kinds. -/
inductive RequestKind where
  | roleMap | tune | seek | scan | presetRecall | presetStore | presetClear | presetRead | listRead | statusQuery
deriving DecidableEq, Repr, Inhabited

/-- The outcomes of a REPLY, in the order of the table of section 11.2. -/
inductive ReplyOutcome where
  | done | accepted | busy | held | protectedPreset | queueFull | badValue | notFound | empty | aborted | noTuner
deriving DecidableEq, Repr, Inhabited

structure ReplyContent where
  requester : Requester
  kind : RequestKind
  outcome : ReplyOutcome
  value : Option Nat
deriving DecidableEq, Repr, Inhabited

/-- The content of a LIST PAGE (R180): entries are channel position and level. -/
structure ListPageContent where
  requester : Requester
  band : Band
  page : Nat
  complete : Bool
  count : Nat
  entries : List (Nat × Nat)
deriving DecidableEq, Repr, Inhabited

/-- The content of a PRESET DATA (R181). -/
structure PresetDataContent where
  requester : Requester
  preset : Nat
  band : Band
  freq : Nat
  name : List Byte
deriving DecidableEq, Repr, Inhabited

/-- A message a ZB740 offers (R26 to R28); it offers no ZONE SET and no request. -/
inductive Msg where
  | claim (stream : Stream) (kind : Kind) (start : SlotNo)
  | release (stream : Stream)
  | zoneState (records : Vector ZoneRecord 4)
  | reply (content : ReplyContent)
  | listPage (content : ListPageContent)
  | presetData (content : PresetDataContent)
  | status (content : StatusContent)
  | presence (content : PresenceContent)
deriving DecidableEq, Repr

/-- A message of the transmit queue and whether it is in flight (R20). -/
structure QueueEntry where
  msg : Msg
  inFlight : Bool
deriving DecidableEq, Repr

structure LinkController where
  queue : List QueueEntry
  deferredPresence : Option PresenceContent
  deferredStatus : Option StatusContent
  sendFlag : Bool
  windowOpen : Bool
  /-- The mark of the round is on the link: the first position has not begun (R19). -/
  markOnLink : Bool
  positions : Nat
  /-- The part drove the void field of the last position dominant (R22). -/
  voidDriven : Bool
deriving DecidableEq, Repr

/-! ## Slots, publisher -/

/-- A HELD entry of the slot table; its owner is the station of its stream (R49). -/
structure SlotEntry where
  stream : Stream
  kind : Kind
  start : SlotNo
  silence : Nat
deriving DecidableEq, Repr, Inhabited

inductive PubState where
  | undemanded | claiming | published | reclaiming | noSlot
deriving DecidableEq, Repr, Inhabited

/-- The record's own message offered, or held back, and not yet taken (R57). -/
inductive Outstanding where
  | none
  | claim (kind : Kind) (start : SlotNo)
  | release
deriving DecidableEq, Repr, Inhabited

/-- What a capture holds (R99, R101, R149). -/
inductive CaptureContent where
  | silence
  | pcm (pairs : List (Sample × Sample))
  | packed (block : List Byte)
  | noBlock
deriving DecidableEq, Repr, Inhabited

/-- The capture of the round just ended, and whether it is usable (R100, R149). -/
structure Capture where
  content : CaptureContent
  usable : Bool
deriving DecidableEq, Repr, Inhabited

structure PubRecord where
  state : PubState
  wanted : Kind
  outstanding : Outstanding
  /-- The outstanding message was handed back by a full queue and waits to be offered again (R62). -/
  heldBack : Bool
  capture : Capture
deriving DecidableEq, Repr, Inhabited

/-- A slot this station has sent (R65). -/
structure SentSlot where
  slot : SlotNo
  bytes : List Byte
deriving DecidableEq, Repr, Inhabited

structure Publisher where
  recA : PubRecord
  recB : PubRecord
  recT : PubRecord
  sentSlot : Option SentSlot
deriving DecidableEq, Repr, Inhabited

/-! ## Inputs -/

inductive InputState where
  | noSignal | acquiring | pcm | packed | unsupported
deriving DecidableEq, Repr, Inhabited

/-- The memory of the rate converter for each channel, as a number; 0 is silence (R98). -/
structure ConverterHistory where
  left : Nat
  right : Nat
deriving DecidableEq, Repr, Inhabited

/-- The state and the complete blocks with which a round ended at an input (R99, R101). -/
structure InputEnd where
  state : InputState
  blocks : List (List Byte)
deriving DecidableEq, Repr, Inhabited

structure InputRecord where
  state : InputState
  rateClass : Option RateClass
  steady : Nat
  lastCounter : Option Byte
  syncRun : Nat
  withoutSync : Nat
  /-- The complete blocks of the alignment buffer, oldest first (R101). -/
  blocks : List (List Byte)
  /-- A block whose framing began at a sync pattern is in progress. -/
  inProgress : Bool
  /-- What the rate converter remembers of the frames since the entry to PCM; silence in every other state (R98). -/
  history : ConverterHistory
  patternSeen : Bool
  changed : Bool
  clockGap : Bool
  /-- How the round ended, where a command has made the step of the coming round begin already (R98, R99, R101). -/
  ended : Option InputEnd
deriving DecidableEq, Repr, Inhabited

structure Inputs where
  recA : InputRecord
  recB : InputRecord
deriving DecidableEq, Repr, Inhabited

/-! ## Preset store -/

/-- The raw fields of a record slot (13.3). -/
structure RecordSlot where
  state : Byte
  number : Byte
  sequence : BitVec 32
  band : Byte
  freq : BitVec 24
  cleared : Byte
  nameLength : Byte
  name : Vector Byte 8
deriving DecidableEq, Repr

/-- A sector: header (generation and mark byte) and 32 record slots (13.3). -/
structure Sector where
  generation : BitVec 32
  mark : Byte
  slots : Vector RecordSlot 32
deriving DecidableEq, Repr

/-- A record slot named by sector and slot number. -/
structure SlotRef where
  sector : Fin 2
  slot : Fin 32
deriving DecidableEq, Repr, Inhabited

/-- An entry of the store queue (section 10.3). -/
inductive StoreEntry where
  | store (number : Fin 30) (band : Band) (freq : Nat) (name : List Byte) (requester : Requester)
  | clear (number : Fin 30) (requester : Requester)
deriving DecidableEq, Repr, Inhabited

/-- The five steps of the store engine. -/
inductive StoreStep where
  | programming | superseding | erasing | copying | header
deriving DecidableEq, Repr, Inhabited

/-- The engine state: idle, a step in progress, or a step suspended for reads (section 10.4). -/
inductive EngineState where
  | idle
  | running (step : StoreStep)
  | suspended (step : StoreStep)
deriving DecidableEq, Repr, Inhabited

/-- A compaction (R171): its spare, the records to copy, the copies made, and the step it has reached. -/
structure Compaction where
  spare : Fin 2
  copyList : List SlotRef
  copied : Nat
  next : StoreStep
deriving DecidableEq, Repr, Inhabited

/-- Who a read is for (R172): the RECALL in flight, a RECALL that was aborted, or a PRESET READ. -/
inductive ReadOrigin where
  | recall
  | abandoned
  | presetRead (requester : Requester)
deriving DecidableEq, Repr, Inhabited

structure Read where
  number : Fin 30
  origin : ReadOrigin
deriving DecidableEq, Repr, Inhabited

/-- The entry being programmed, the slot written and the previous record noted (R169). -/
structure Programming where
  entry : StoreEntry
  slot : SlotRef
  record : RecordSlot
  previous : Option SlotRef
deriving DecidableEq, Repr

structure PresetStore where
  sectors : Vector Sector 2
  index : Vector (Option SlotRef) 30
  queue : List StoreEntry
  engine : EngineState
  /-- Tenths of a millisecond left in the step in progress or suspended. -/
  remaining : Nat
  compaction : Option Compaction
  current : Option Programming
  reads : List Read
  readInService : Bool
  nextSequence : BitVec 32
  recoveryEnded : Bool
deriving DecidableEq, Repr

/-! ## Configuration, conditions, reset, pins -/

inductive BandPlan where
  | a | b
deriving DecidableEq, Repr, Inhabited

inductive CutMode where
  | hard | ramp
deriving DecidableEq, Repr, Inhabited

/-- The configured values (R187). -/
structure ConfigValues where
  zone : Zone
  roles : Vector (Option Role) 4
  plan : BandPlan
  tunerFitted : Bool
  fixedCount : Nat
  watchdogLimit : Nat
  cutMode : CutMode
  d : Nat
  fmThreshold : Nat
  amThreshold : Nat
deriving DecidableEq, Repr

structure Configuration where
  station : Station
  imageRead : Bool
  valid : Bool
  values : ConfigValues
  /-- The ROLE MAP overrides: absent, or a role or NONE (R91). -/
  overrides : Vector (Option (Option Role)) 4
  /-- The station has entered JOINING since the reset (R188). -/
  joined : Bool
deriving DecidableEq, Repr

/-- The condition set, as the 24-bit field of STATUS numbers its entries (13.2). -/
structure Conditions where
  held : BitVec 24
  /-- An offer of STATUS made within the event in progress; clear between events. -/
  statusDue : Bool
deriving DecidableEq, Repr, Inhabited

/-- The causes that hold the part in reset (R186). -/
structure ResetControl where
  powerOn : Bool
  nReset : Bool
deriving DecidableEq, Repr, Inhabited

/-- The levels of the input pins as last driven. -/
structure Pins where
  mute : Bool
  faultLines : Vector Bool 4
  clockA : Bool
  clockB : Bool
deriving DecidableEq, Repr

/-- The state of one ZB740 and the queue of commands that wait for it. -/
structure State where
  rt : RoundTimer
  lc : LinkController
  pt : PeerTable
  st : Vector (Option SlotEntry) 24
  sp : Publisher
  sr : Receiver
  zt : ZoneTable
  ir : Inputs
  pd : Decoder
  mm : MixMatrix
  om : OutputModulators
  sm : SupplyLevel
  tb : Tuner
  ps : PresetStore
  cl : Configuration
  cr : Conditions
  rc : ResetControl
  pins : Pins
  /-- The counter the free values of Config are applied to. -/
  freeDraws : Nat
  pending : List Instr
deriving DecidableEq, Repr

/-- What could stop the part. The manual describes no such thing, so no meaning raises one. -/
inductive Fault where
  /-- Raised by nothing: the manual gives every command an effect. Safe: no run of the model ends in it. -/
  | none
deriving DecidableEq, Repr

/-- Why a command has no meaning. -/
inductive Refusal where
  /-- Raised by exec alone, for a command that has no meaning yet. Safe: the model stops where the part goes on. -/
  | notModelled (mnemonic : String)
deriving DecidableEq, Repr

/-! ## Reset values -/

/-- R10, R12, R3, R2, R8 and R11; D stands at the default until the image is read (R4). -/
def RoundTimer.reset : RoundTimer :=
  { counter := 0, prevCapture := none, takeover := .stopped, roundNumber := none, currentSender := none, isSender := false,
    lostAsSender := false, outgoing := none, adoptedD := 3, discipline := .free, goodRun := 0, holdover := 0, holdoverFresh := false, trim := 0,
    roundBegun := false }

/-- R19, R26 and R27. -/
def LinkController.reset : LinkController :=
  { queue := [], deferredPresence := none, deferredStatus := none, sendFlag := false, windowOpen := false, markOnLink := false, positions := 0,
    voidDriven := false }

/-- R34, R38, R40, R188 and R189. -/
def PeerTable.reset : PeerTable :=
  { entries := Vector.replicate 8 none, mode := .joining, joinCount := 0, joinFlag := true, firstOffered := false,
    presenceDue := false }

/-- R57: UNDEMANDED, nothing outstanding; the wanted kind of an input in NO_SIGNAL is PCM2 (R58). -/
def PubRecord.reset : PubRecord :=
  { state := .undemanded, wanted := .pcm2, outstanding := .none, heldBack := false,
    capture := { content := .silence, usable := false } }

def Publisher.reset : Publisher :=
  { recA := PubRecord.reset, recB := PubRecord.reset, recT := PubRecord.reset, sentSlot := none }

/-- A ring entry after a drop: MISSING with no round number (R67). -/
def RingEntry.missing : RingEntry :=
  { round := none, status := .missing, kind := none, noBlock := false, data := [] }

/-- R67. -/
def Receiver.reset : Receiver :=
  { subscription := none, target := none, ring := Vector.replicate 8 RingEntry.missing, watchdog := 0, programKind := none,
    state := .idle, lead := none, lastPairs := [], gathered := [] }

/-- R74. -/
def ZoneRecord.reset : ZoneRecord :=
  { program := none, listening := .surround, volume := 40, mute := false, standby := true }

def ZoneMarks.clear : ZoneMarks :=
  { program := false, listening := false, volume := false, mute := false, standby := false }

/-- R74, R81 and R84. -/
def ZoneTable.reset : ZoneTable :=
  { records := Vector.replicate 4 ZoneRecord.reset, marks := Vector.replicate 4 ZoneMarks.clear,
    holders := Vector.replicate 8 none }

/-- The converter starts from silence (R98). -/
def ConverterHistory.silence : ConverterHistory := { left := 0, right := 0 }

/-- R93. -/
def InputRecord.reset : InputRecord :=
  { state := .noSignal, rateClass := none, steady := 0, lastCounter := none, syncRun := 0, withoutSync := 0, blocks := [],
    inProgress := false, history := ConverterHistory.silence, patternSeen := false, changed := false, clockGap := false,
    ended := none }

def Inputs.reset : Inputs := { recA := InputRecord.reset, recB := InputRecord.reset }

/-- R106. -/
def Decoder.reset : Decoder :=
  { state := .off, reference := none, confirmed := none, candidate := none, conceal := 0, lastGood := none }

/-- A frame of silence: no channel present. -/
def Frame.silence : Frame := { gain80 := 0, channels := Vector.replicate 8 none }

/-- The matrix built from the empty layout and the empty effective set (R122). -/
def Matrix.zero : Matrix :=
  { layout := 0, effective := 0, rows := Vector.replicate 8 (Vector.replicate 8 Coef.zero) }

/-- R122. -/
def MixMatrix.reset : MixMatrix :=
  { active := Matrix.zero, pending := Matrix.zero, dirty := false, swapped := false, frame := Frame.silence }

/-- Every step of the coming round begin is still to come. -/
def OutputSteps.none : OutputSteps := { ramp := false, decay := false, recovery := false }

/-- R125. -/
def OutputRecord.reset : OutputRecord :=
  { roleStatus := .none, state := .off, ramp := 0, atten := 40, overload := 0, decay := 0, recovery := 0, recovered := 0, width := 128,
    enabled := false, taken := OutputSteps.none }

def OutputModulators.reset : OutputModulators :=
  { outputs := Vector.replicate 4 OutputRecord.reset, carrier := 0 }

def Gate.reset : Gate :=
  { ifStart := 0, counterStart := 0, levelSum := 0, readings := 0, pilot := false, left := 0 }

def StationList.empty : StationList := { entries := [], complete := false }

/-- Every step of the coming round begin is still to come. -/
def TunerSteps.none : TunerSteps := { phase := false, unheld := false }

/-- R146; the frequency is set to the lowest FM channel of the plan at the image-read event. -/
def Tuner.reset : Tuner :=
  { state := .off, band := .fm, freq := 87500, phase := 0, gate := Gate.reset, level := 0, offset := { num := 0, den := 1 },
    pilot := false, op := none, holders := [], fmList := StationList.empty, amList := StationList.empty, unheld := 0,
    ifCount := 0, freqWord := none, changed := false, ended := none, taken := TunerSteps.none }

/-- A record slot whose twenty bytes are FFh (13.3). -/
def RecordSlot.erased : RecordSlot :=
  { state := 0xFF, number := 0xFF, sequence := 0xFFFFFFFF, band := 0xFF, freq := 0xFFFFFF, cleared := 0xFF, nameLength := 0xFF,
    name := Vector.replicate 8 0xFF }

/-- A sector every byte of which is FFh (13.3). -/
def Sector.erased : Sector :=
  { generation := 0xFFFFFFFF, mark := 0xFF, slots := Vector.replicate 32 RecordSlot.erased }

/-- The RAM of the store after a reset, beside the sectors that it keeps (R175). The manual calls the index and the next sequence lost and gives them
no value before recovery builds them; no entry and 0 are the model's choice (the log's row 15). -/
def PresetStore.reset (sectors : Vector Sector 2) : PresetStore :=
  { sectors := sectors, index := Vector.replicate 30 none, queue := [], engine := .idle, remaining := 0, compaction := none,
    current := none, reads := [], readInService := false, nextSequence := 0, recoveryEnded := false }

/-- The defaults of an invalid image (section 12.2). -/
def ConfigValues.default : ConfigValues :=
  { zone := 0, roles := Vector.replicate 4 none, plan := .a, tunerFitted := false, fixedCount := 0, watchdogLimit := 4,
    cutMode := .ramp, d := 3, fmThreshold := 40, amThreshold := 30 }

/-- R187 and R92. -/
def Configuration.reset : Configuration :=
  { station := 0, imageRead := false, valid := false, values := ConfigValues.default, overrides := Vector.replicate 4 none,
    joined := false }

/-- CLOCK_UNLOCKED and SUPPLY_LOW held, every other entry clear (R17, R138, R182). -/
def Conditions.reset : Conditions := { held := 0x000006, statusDue := false }

def Pins.reset : Pins := { mute := false, faultLines := Vector.replicate 4 false, clockA := false, clockB := false }

/-- Every block at its reset values, held in reset by the given causes, with the sectors, pins, free-value counter and queue given. -/
def State.resetWith (sectors : Vector Sector 2) (rc : ResetControl) (pins : Pins) (freeDraws : Nat) (pending : List Instr) : State :=
  { rt := RoundTimer.reset, lc := LinkController.reset, pt := PeerTable.reset, st := Vector.replicate 24 none,
    sp := Publisher.reset, sr := Receiver.reset, zt := ZoneTable.reset, ir := Inputs.reset, pd := Decoder.reset,
    mm := MixMatrix.reset, om := OutputModulators.reset, sm := .low, tb := Tuner.reset, ps := PresetStore.reset sectors,
    cl := Configuration.reset, cr := Conditions.reset, rc := rc, pins := pins, freeDraws := freeDraws, pending := pending }

/-- The part held in power-on reset with a preset memory that has never been written (R186, R176). -/
def State.reset : State :=
  State.resetWith (Vector.replicate 2 Sector.erased) { powerOn := true, nReset := false } Pins.reset 0 []

end Sys2Proof.Machine
end

