-- ==== Sys2Proof/Machine/Wire.lean ====
section
/-! DEFINITION. The wire and memory formats of chapter 13: the check word, and the layouts of marks, control messages, slots,
packed blocks, the configuration image and preset sectors. -/

namespace Sys2Proof.Machine

/-! ## The check word (R191) -/

/-- One bit of the cyclic check: the register shifts left by one, and is combined with 1021h
where the bit shifted out differs from the data bit. -/
def crcBit (r : Nat) (bit : Bool) : Nat :=
  if (32768 ≤ r : Bool) != bit then Nat.xor ((2 * r) % 65536) 0x1021 else (2 * r) % 65536

/-- One byte of the cyclic check, most significant bit first. -/
def crcByte (r : Nat) (x : Byte) : Nat :=
  [7, 6, 5, 4, 3, 2, 1, 0].foldl (fun q i => crcBit q (x.getLsbD i)) r

/-- The register after the bytes, from the value given. The two cases of the register make an
evaluator compute it at each byte. -/
def crcFrom : List Byte → Nat → Nat
  | [], r => r
  | x :: xs, 0 => crcFrom xs (crcByte 0 x)
  | x :: xs, r + 1 => crcFrom xs (crcByte (r + 1) x)

/-- The check word over the bytes: the register starts at FFFFh and is not inverted at the end. -/
def crc (bytes : List Byte) : BitVec 16 := BitVec.ofNat 16 (crcFrom bytes 0xFFFF)

/-- The high and the low byte of a 16-bit field, most significant byte first. -/
def bytes16 (x : BitVec 16) : List Byte := [x.extractLsb' 8 8, x.extractLsb' 0 8]

/-- The three bytes of a 24-bit field, most significant byte first. -/
def bytes24 (x : BitVec 24) : List Byte := [x.extractLsb' 16 8, x.extractLsb' 8 8, x.extractLsb' 0 8]

/-- The number that bytes give, most significant byte first. -/
def natOfBytes (bytes : List Byte) : Nat := bytes.foldl (fun n b => 256 * n + b.toNat) 0

/-- The bytes followed by their check word. -/
def withCheck (bytes : List Byte) : List Byte := bytes ++ bytes16 (crc bytes)

/-- Whether the last two bytes are the check word of the bytes before them. -/
def checkAgrees (bytes : List Byte) : Bool :=
  2 ≤ bytes.length && bytes16 (crc (bytes.take (bytes.length - 2))) == bytes.drop (bytes.length - 2)

/-! ## Round mark -/

/-- The fields of a good mark (R2). -/
structure MarkFields where
  sender : Station
  number : RoundNo
  d : Nat
deriving DecidableEq, Repr, Inhabited

/-- The byte over which the check of a mark begins: the sender in bits 2 to 0. -/
def senderByte (sender : BitVec 3) : Byte := sender.setWidth 8

/-- The body of a mark: round number, D, check (13.2). -/
def encodeMark (m : MarkFields) : List Byte :=
  let body := bytes16 m.number ++ [BitVec.ofNat 8 m.d]
  body ++ bytes16 (crc (senderByte (BitVec.ofNat 3 m.sender.val) :: body))

/-- A mark as received: its fields where the check word is correct, none where the mark is damaged (R2). -/
def readMark (sender : BitVec 3) (body : List Byte) : Option MarkFields :=
  if body.length == 5 && checkAgrees (senderByte sender :: body) then
    some { sender := sender.toFin, number := BitVec.ofNat 16 (natOfBytes (body.take 2)), d := natOfBytes ((body.drop 2).take 1) }
  else none

/-! ## Common encodings -/

def Source.code : Source → Nat
  | .a => 0
  | .b => 1
  | .t => 2

def sourceOfCode : Nat → Option Source
  | 0 => some .a
  | 1 => some .b
  | 2 => some .t
  | _ => none

/-- Station in bits 7 to 5, source in bits 1 to 0. -/
def encodeStream (s : Stream) : Byte := BitVec.ofNat 8 (32 * s.station.val + Source.code s.source)

/-- A program: NONE is FFh. -/
def encodeProgram : Option Stream → Byte
  | none => 0xFF
  | some s => encodeStream s

/-- The station in bits 7 to 5 of a byte. -/
def stationOfByte (b : Byte) : Station := (b.extractLsb' 5 3).toFin

/-- A program byte: NONE for FFh, out of range for another byte with source 3; bits 4 to 2 are ignored (R192). -/
def decodeProgram (b : Byte) : Option (Option Stream) :=
  if b == 0xFF then some none
  else (sourceOfCode (b.extractLsb' 0 2).toNat).map fun src => some { station := stationOfByte b, source := src }

/-- A stream byte that names a stream. -/
def decodeStream (b : Byte) : Option Stream := (decodeProgram b).join

def encodeRequester (r : Requester) : Byte := BitVec.ofNat 8 (32 * r.station.val + r.zone.val)

def Role.code : Role → Nat
  | .fl => 0
  | .fr => 1
  | .c => 2
  | .lfe => 3
  | .sl => 4
  | .sr => 5
  | .bl => 6
  | .br => 7

/-- The roles in role order. -/
def allRoles : List Role := [.fl, .fr, .c, .lfe, .sl, .sr, .bl, .br]

/-- The role or NONE of a code: 0 to 7 and 15; 8 to 14 are out of range (R192). -/
def roleOfCode (n : Nat) : Option (Option Role) :=
  if n == 15 then some none else (allRoles[n]?).map some

def encodeRole : Option Role → Nat
  | none => 15
  | some r => Role.code r

def Health.code : Health → Nat
  | .ok => 0
  | .faulted => 1
  | .retired => 2

def healthOfCode : Nat → Option Health
  | 0 => some .ok
  | 1 => some .faulted
  | 2 => some .retired
  | _ => none

def Kind.code : Kind → Nat
  | .pcm2 => 0
  | .packed => 1

def kindOfCode : Nat → Option Kind
  | 0 => some .pcm2
  | 1 => some .packed
  | _ => none

/-- A kind or none: PCM2 0, PACKED 1, none 3; 2 is out of range (R192). -/
def announcedKindOfCode : Nat → Option (Option Kind)
  | 0 => some (some .pcm2)
  | 1 => some (some .packed)
  | 3 => some none
  | _ => none

def encodeAnnouncedKind : Option Kind → Nat
  | none => 3
  | some k => Kind.code k

def Mode.code : Mode → Nat
  | .joining => 0
  | .active => 1
  | .serving => 2
  | .standby => 3

def modeOfCode : Nat → Option Mode
  | 0 => some .joining
  | 1 => some .active
  | 2 => some .serving
  | 3 => some .standby
  | _ => none

def ListeningMode.code : ListeningMode → Nat
  | .stereo => 0
  | .surround => 1
  | .direct => 2

def listeningOfCode : Nat → Option ListeningMode
  | 0 => some .stereo
  | 1 => some .surround
  | 2 => some .direct
  | _ => none

def Band.code : Band → Nat
  | .fm => 0
  | .am => 1

def bandOfCode : Nat → Option Band
  | 0 => some .fm
  | 1 => some .am
  | _ => none

def ReplyOutcome.code : ReplyOutcome → Nat
  | .done => 0
  | .accepted => 1
  | .busy => 2
  | .held => 3
  | .protectedPreset => 4
  | .queueFull => 5
  | .badValue => 6
  | .notFound => 7
  | .empty => 8
  | .aborted => 9
  | .noTuner => 10

/-- The kind codes of the ten requests (13.2). -/
def RequestKind.code : RequestKind → Nat
  | .roleMap => 5
  | .tune => 6
  | .seek => 7
  | .scan => 8
  | .presetRecall => 9
  | .presetStore => 10
  | .presetClear => 11
  | .presetRead => 12
  | .listRead => 13
  | .statusQuery => 14

/-- The states of STATUS, numbered in the order in which section 11.4 lists them. -/
def Discipline.code : Discipline → Nat
  | .free => 0
  | .acquiring => 1
  | .locked => 2
  | .holdover => 3

def TunerState.code : TunerState → Nat
  | .off => 0
  | .settling => 1
  | .measuring => 2
  | .listening => 3

def DecoderState.code : DecoderState → Nat
  | .off => 0
  | .hunt => 1
  | .confirm => 2
  | .locked => 3
  | .conceal => 4

def ReceiverState.code : ReceiverState → Nat
  | .idle => 0
  | .filling => 1
  | .running => 2
  | .lost => 3

def OutState.code : OutState → Nat
  | .off => 0
  | .silent => 1
  | .rampUp => 2
  | .playing => 3
  | .rampDown => 4
  | .faulted => 5
  | .retired => 6

def boolBit (b : Bool) (bit : Nat) : Nat := if b then 2 ^ bit else 0

/-! ## Control messages -/

/-- The kind code of a message (13.2). -/
def Msg.code : Msg → Nat
  | .claim .. => 1
  | .release _ => 2
  | .zoneState _ => 4
  | .reply _ => 15
  | .listPage _ => 16
  | .presetData _ => 17
  | .status _ => 18
  | .presence _ => 19

/-- The class of a message (section 2.3). -/
def Msg.cls : Msg → Nat
  | .claim .. => 0
  | .release _ => 0
  | .zoneState _ => 1
  | .reply _ => 3
  | .listPage _ => 3
  | .presetData _ => 3
  | .status _ => 3
  | .presence _ => 4

def encodeZoneRecord (r : ZoneRecord) : List Byte :=
  [encodeProgram r.program, BitVec.ofNat 8 (ListeningMode.code r.listening), BitVec.ofNat 8 r.volume,
    BitVec.ofNat 8 (boolBit r.mute 1 + boolBit r.standby 0)]

def encodeName (name : List Byte) : List Byte := BitVec.ofNat 8 name.length :: name

/-- The payload of a message (13.2). The bits that a layout neither names nor marks 0 are sent as 0: the model's choice (the log's row 67). -/
def encodePayload : Msg → List Byte
  | .claim s k start => [encodeStream s, BitVec.ofNat 8 (Kind.code k), BitVec.ofNat 8 start.val]
  | .release s => [encodeStream s]
  | .zoneState records => records.toList.flatMap encodeZoneRecord
  | .reply c =>
    [encodeRequester c.requester, BitVec.ofNat 8 (RequestKind.code c.kind), BitVec.ofNat 8 (ReplyOutcome.code c.outcome)]
      ++ (c.value.map fun v => bytes24 (BitVec.ofNat 24 v)).getD []
  | .listPage c =>
    [encodeRequester c.requester, BitVec.ofNat 8 (128 * Band.code c.band + 32 * c.page + boolBit c.complete 4),
      BitVec.ofNat 8 c.count]
      ++ c.entries.flatMap fun e => [BitVec.ofNat 8 e.1, BitVec.ofNat 8 e.2]
  | .presetData c =>
    [encodeRequester c.requester, BitVec.ofNat 8 c.preset, BitVec.ofNat 8 (Band.code c.band)]
      ++ bytes24 (BitVec.ofNat 24 c.freq) ++ encodeName c.name
  | .status c =>
    bytes24 c.conditions ++
      [BitVec.ofNat 8 (16 * Mode.code c.mode + Discipline.code c.clock),
        BitVec.ofNat 8 (16 * TunerState.code c.tuner + 2 * Band.code c.band + boolBit c.pilot 0)]
      ++ bytes24 (BitVec.ofNat 24 c.freq) ++
      [BitVec.ofNat 8 c.level, BitVec.ofNat 8 (16 * DecoderState.code c.decoder + ReceiverState.code c.receiver),
        BitVec.ofNat 8 (16 * OutState.code c.outputs[0] + OutState.code c.outputs[1]),
        BitVec.ofNat 8 (16 * OutState.code c.outputs[2] + OutState.code c.outputs[3])]
  | .presence c =>
    [BitVec.ofNat 8 c.zone.val, BitVec.ofNat 8 (Mode.code c.mode), BitVec.ofNat 8 (boolBit c.configInvalid 1 + boolBit c.joining 0)]
      ++ (c.outputs.toList.map fun o => BitVec.ofNat 8 (16 * encodeRole o.role + Health.code o.health)) ++
      [BitVec.ofNat 8 (16 * encodeAnnouncedKind c.kindA + 4 * encodeAnnouncedKind c.kindB + encodeAnnouncedKind c.kindT)]

/-- The body of a message as it is sent: kind, length, payload, check word (13.2). -/
def encodeBody (m : Msg) : List Byte :=
  withCheck (BitVec.ofNat 8 (8 * m.code) :: BitVec.ofNat 8 (encodePayload m).length :: encodePayload m)

/-- The void decision of a receiving station (R22): a wrong check word, a length above 24, or a body that ends early or runs on. -/
def bodyIsVoid : List Byte → Bool
  | kind :: len :: rest => 24 < len.toNat || rest.length != len.toNat + 2 || !checkAgrees (kind :: len :: rest)
  | _ => true

/-! ## Slots -/

/-- The width of a run (section 4.1). -/
def widthOf : Kind → Nat
  | .pcm2 => 2
  | .packed => 4

/-- The fields of a slot header (section 4.2). -/
structure SlotHeader where
  stream : Stream
  kind : Kind
  part : Nat
  muted : Bool
  noBlock : Bool
  capture : Byte
deriving DecidableEq, Repr, Inhabited

/-- A slot as it is sent: header, data of 144 bytes, check over bytes 0 to 146. -/
def encodeSlot (h : SlotHeader) (data : List Byte) : List Byte :=
  withCheck
    (BitVec.ofNat 8 (32 * h.stream.station.val + 8 * Source.code h.stream.source + 4 * Kind.code h.kind + h.part)
      :: BitVec.ofNat 8 (boolBit h.muted 7 + boolBit h.noBlock 6) :: h.capture :: data)

/-- The header and data of a slot whose check is correct and whose source is a letter; the tests of R54 that do not need the
station's round number are that the part is below the width and the implied run lies within slots 0 to 23. -/
def readSlot (slot : SlotNo) (heard : List Byte) : Option (SlotHeader × List Byte) :=
  match heard with
  | b0 :: b1 :: b2 :: rest =>
    match sourceOfCode (b0.extractLsb' 3 2).toNat, kindOfCode (b0.extractLsb' 2 1).toNat with
    | some src, some kind =>
      let part := (b0.extractLsb' 0 2).toNat
      if heard.length == 149 && checkAgrees heard && part < widthOf kind && part ≤ slot.val && slot.val - part + widthOf kind ≤ 24 then
        some ({ stream := { station := stationOfByte b0, source := src }, kind := kind, part := part,
                muted := b1.getLsbD 7, noBlock := b1.getLsbD 6, capture := b2 }, rest.take 144)
      else none
    | _, _ => none
  | _ => none

/-! ## Packed blocks (13.2, R104, R105) -/

/-- One channel of a packed block: its exponent and its 48 signed mantissas. -/
structure ChannelData where
  exponent : Nat
  mantissas : List Int
deriving DecidableEq, Repr, Inhabited

/-- The fields of a valid packed block. -/
structure PackedBlock where
  counter : Byte
  layout : RoleSet
  dialogue : Nat
  rangeGain : Int
  channels : Vector (Option ChannelData) 8
deriving DecidableEq, Repr

/-- A role in a role set: FL is bit 7, BR bit 0. -/
def hasRole (set : RoleSet) (role : Role) : Bool := set.getLsbD (7 - Role.code role)

/-- The number of roles of a set before the one given, in role order. -/
def rankIn (set : RoleSet) (n : Nat) : Nat := ((allRoles.take n).filter (hasRole set)).length

def sizeOf (set : RoleSet) : Nat := rankIn set 8

/-- A 10-bit field as a two's complement number. -/
def signed10 (n : Nat) : Int := if n < 512 then n else (n : Int) - 1024

/-- The 61 bytes of one channel: exponent in bits 7 to 4 of the first, then 48 mantissas of 10 bits without gaps. Bits 3 to 0 of the first byte are
ignored (the log's row 67). -/
def readChannel (bytes : List Byte) : ChannelData :=
  let packed := natOfBytes ((bytes.drop 1).take 60)
  { exponent := ((bytes.headD 0).extractLsb' 4 4).toNat,
    mantissas := (List.range 48).map fun i => signed10 (packed / 1024 ^ (47 - i) % 1024) }

/-- A block is valid when it begins with the sync pattern, its layout is not empty and its check word is correct (R104).
The check stands after the channel data that the layout calls for. Bits 7 to 5 of the dialogue byte and 7 and 6 of the range byte are ignored (the
log's row 67). -/
def readBlock (bytes : List Byte) : Option PackedBlock :=
  match bytes with
  | s1 :: s0 :: counter :: layout :: dlg :: rng :: data =>
    let n := sizeOf layout
    if s1 == 0x5A && s0 == 0xC3 && layout != 0 && 8 + 61 * n ≤ bytes.length && checkAgrees (bytes.take (8 + 61 * n)) then
      some
        { counter := counter, layout := layout, dialogue := (dlg.extractLsb' 0 5).toNat,
          rangeGain := (rng.extractLsb' 0 6).toInt,
          channels := Vector.ofFn fun i =>
            match allRoles[i.val]? with
            | some role =>
              if hasRole layout role then some (readChannel ((data.drop (61 * rankIn layout i.val)).take 61)) else none
            | none => none }
    else none
  | _ => none

/-! ## Configuration image (13.3, R187) -/

def planOfCode : Nat → Option BandPlan
  | 0 => some .a
  | 1 => some .b
  | _ => none

def cutModeOfCode : Nat → Option CutMode
  | 0 => some .hard
  | 1 => some .ramp
  | _ => none

def boolOfCode : Nat → Option Bool
  | 0 => some false
  | 1 => some true
  | _ => none

/-- A number tested against a range. -/
def inRange (lo hi n : Nat) : Option Nat := if lo ≤ n ∧ n ≤ hi then some n else none

/-- The fields of a configuration image, none where the check word disagrees or any byte is out of its range. -/
def readImage (image : List Byte) : Option ConfigValues := do
  let at' : Nat → Nat := fun i => (image.getD i 0).toNat
  if !(image.length == 30 && checkAgrees image && at' 0 == 0x5A && at' 1 == 0x37
      && ((image.drop 15).take 13).all (· == 0)) then none
  let zone ← if h : at' 2 < 4 then some (⟨at' 2, h⟩ : Zone) else none
  let r0 ← roleOfCode (at' 3)
  let r1 ← roleOfCode (at' 4)
  let r2 ← roleOfCode (at' 5)
  let r3 ← roleOfCode (at' 6)
  let plan ← planOfCode (at' 7)
  let fitted ← boolOfCode (at' 8)
  let f ← inRange 0 10 (at' 9)
  let limit ← if at' 10 == 4 || at' 10 == 16 then some (at' 10) else none
  let cut ← cutModeOfCode (at' 11)
  let d ← inRange 2 6 (at' 12)
  let fm ← inRange 0 127 (at' 13)
  let am ← inRange 0 127 (at' 14)
  return { zone := zone, roles := #v[r0, r1, r2, r3], plan := plan, tunerFitted := fitted, fixedCount := f,
           watchdogLimit := limit, cutMode := cut, d := d, fmThreshold := fm, amThreshold := am }

/-! ## Preset sectors (13.3, R192) -/

/-- The states of a record slot (R163). -/
inductive SlotState where
  | erased | writing | live | superseded
deriving DecidableEq, Repr, Inhabited

def stateByteWriting : Byte := 0x7F
def stateByteLive : Byte := 0x3F
def stateByteSuperseded : Byte := 0x1F
def stateByteErased : Byte := 0xFF
/-- The mark of a valid sector header. -/
def headerMark : Byte := 0xA5

/-- The state of a slot; a state byte of no other meaning is read as WRITING (R192). -/
def RecordSlot.slotState (r : RecordSlot) : SlotState :=
  if r.state == stateByteErased then .erased
  else if r.state == stateByteLive then .live
  else if r.state == stateByteSuperseded then .superseded
  else .writing

/-- The band of a record; a band byte above 1 is read as AM (R192). -/
def RecordSlot.readBand (r : RecordSlot) : Band := if r.band == 0 then .fm else .am

/-- A cleared byte other than FFh is read as cleared (R192). -/
def RecordSlot.isCleared (r : RecordSlot) : Bool := r.cleared != 0xFF

/-- The characters a name may hold (R166). -/
def nameCharOk (b : Byte) : Bool := 32 ≤ b.toNat && b.toNat ≤ 126

/-- The name of a record; a length above 8, or a code outside 32 to 126, gives an empty name (R192). -/
def RecordSlot.readName (r : RecordSlot) : List Byte :=
  let name := r.name.toList.take r.nameLength.toNat
  if r.nameLength.toNat ≤ 8 && name.all nameCharOk then name else []

/-- The preset number of a record as an index entry; a number outside 1 to 30 has none (R165). -/
def RecordSlot.readNumber (r : RecordSlot) : Option (Fin 30) :=
  if h : 1 ≤ r.number.toNat ∧ r.number.toNat ≤ 30 then some ⟨r.number.toNat - 1, by omega⟩ else none

/-- The header of a sector is valid while its mark is A5h. -/
def Sector.valid (s : Sector) : Bool := s.mark == headerMark

/-- The bytes of a record slot, as a tool that reads the sector sees them. -/
def encodeRecord (r : RecordSlot) : List Byte :=
  [r.state, r.number] ++ (bytes16 (r.sequence.extractLsb' 16 16) ++ bytes16 (r.sequence.extractLsb' 0 16)) ++ [r.band]
    ++ bytes24 r.freq ++ [r.cleared, r.nameLength] ++ r.name.toList

/-- The 645 bytes of a sector: generation, mark, 32 record slots. -/
def encodeSector (s : Sector) : List Byte :=
  bytes16 (s.generation.extractLsb' 16 16) ++ bytes16 (s.generation.extractLsb' 0 16) ++ [s.mark]
    ++ s.slots.toList.flatMap encodeRecord

end Sys2Proof.Machine
end

