-- ==== Sys2Proof/Machine/Operands.lean ====
section
/-! DEFINITION. The fields of taken messages: what each payload gives its owner, with the absence and range rules of R192. A field that lies
beyond the payload is absent; bytes beyond those that the kind requires are ignored. -/

namespace Sys2Proof.Machine

/-! ## Bodies (R22, R31, R192) -/

/-- The class of the kind that a kind code names (section 2.3, 13.2); codes 0 and 20 to 31 name no kind. -/
def classOfKind (code : BitVec 5) : Option Nat :=
  match code.toNat with
  | 1 | 2 => some 0
  | 3 | 4 | 5 => some 1
  | 6 | 7 | 8 | 9 | 10 | 11 | 12 | 13 | 14 => some 2
  | 15 | 16 | 17 | 18 => some 3
  | 19 => some 4
  | _ => none

/-- The kind code of a body: bits 7 to 3 of its first byte; bits 2 to 0 are ignored. -/
def codeOfBody (body : List Byte) : BitVec 5 := (body.headD 0).extractLsb' 3 5

/-- The payload of a body that no station voids. -/
def payloadOfBody (body : List Byte) : List Byte := (body.drop 2).take (body.length - 4)

/-- The command of a known kind. -/
def commandOfKind (code : BitVec 5) (sender : Station) (payload : List Byte) : Option Instr :=
  match code.toNat with
  | 1 => some (.claim sender payload)
  | 2 => some (.release sender payload)
  | 3 => some (.zoneSet sender payload)
  | 4 => some (.zoneState sender payload)
  | 5 => some (.roleMap sender payload)
  | 6 => some (.tune sender payload)
  | 7 => some (.seek sender payload)
  | 8 => some (.scan sender payload)
  | 9 => some (.presetRecall sender payload)
  | 10 => some (.presetStore sender payload)
  | 11 => some (.presetClear sender payload)
  | 12 => some (.presetRead sender payload)
  | 13 => some (.listRead sender payload)
  | 14 => some (.statusQuery sender payload)
  | 15 => some (.reply sender payload)
  | 16 => some (.listPage sender payload)
  | 17 => some (.presetData sender payload)
  | 18 => some (.status sender payload)
  | 19 => some (.presence sender payload)
  | _ => none

/-- The command that the take of a message is, from its arbitration field and body: the kind's own where the code names a kind of the field's class,
UNKNOWN_KIND otherwise; none where the body is voided (R22, R31, R192). -/
def commandOfBody (field : ArbField) (body : List Byte) : Option Instr :=
  let code := codeOfBody body
  if bodyIsVoid body then none
  else if classOfKind code == some field.cls.toNat then commandOfKind code field.sender (payloadOfBody body)
  else some (.unknownKind field code)

/-- A zone byte, 0 to 3. -/
def zoneOfByte (b : Byte) : Option Zone := if h : b.toNat < 4 then some ⟨b.toNat, h⟩ else none

/-- A request is addressed to this station when its first byte is the station's number (R177). -/
def addressedTo (own : Station) (payload : List Byte) : Bool :=
  (payload[0]?).map (·.toNat) == some own.val

/-- The requester zone of a request, none where it is absent or out of range. -/
def requesterZone (payload : List Byte) : Option Zone := (payload[1]?).bind zoneOfByte

/-- The stream, kind and start of a CLAIM, none where one is absent or out of range (R50, R192). -/
def claimFields (payload : List Byte) : Option (Stream × Kind × SlotNo) := do
  let stream ← (payload[0]?).bind decodeStream
  let kind ← (payload[1]?).bind fun b => kindOfCode b.toNat
  let start ← (payload[2]?).bind fun b => if h : b.toNat < 24 then some (⟨b.toNat, h⟩ : SlotNo) else none
  return (stream, kind, start)

/-- The stream of a RELEASE. -/
def releaseField (payload : List Byte) : Option Stream := (payload[0]?).bind decodeStream

/-- The fields that a valid ZONE SET carries; none is an absent field (R75). -/
structure ZoneSetFields where
  zone : Zone
  program : Option (Option Stream)
  listening : Option ListeningMode
  volume : Option Nat
  mute : Option Bool
  standby : Option Bool
deriving DecidableEq, Repr, Inhabited

/-- A field marked carried, read from its byte: absent where it is not carried, out of range where it is carried and its byte is
absent or has no value. -/
def carriedField {α : Type} (carried : Bool) (byte : Option Byte) (value : Byte → Option α) : Option (Option α) :=
  if carried then (byte.bind value).map some else some none

def volumeOfByte (b : Byte) : Option Nat := inRange 0 160 b.toNat

/-- The fields of a ZONE SET, none where the message is out of range as a whole (R75, R192). The bits that the layout neither names nor marks 0 (mask
bits 7 to 5, flags 7 to 2) are ignored here and in the other readers: R192 speaks of bits marked 0 alone, and this is the model's choice (the log's
row 67). -/
def zoneSetFields (payload : List Byte) : Option ZoneSetFields := do
  let zone ← (payload[0]?).bind zoneOfByte
  let mask ← payload[1]?
  let program ← carriedField (mask.getLsbD 4) payload[2]? decodeProgram
  let listening ← carriedField (mask.getLsbD 3) payload[3]? fun b => listeningOfCode b.toNat
  let volume ← carriedField (mask.getLsbD 2) payload[4]? volumeOfByte
  let mute ← carriedField (mask.getLsbD 1) payload[5]? fun b => some (b.getLsbD 1)
  let standby ← carriedField (mask.getLsbD 0) payload[5]? fun b => some (b.getLsbD 0)
  return { zone := zone, program := program, listening := listening, volume := volume, mute := mute, standby := standby }

/-- One record of a ZONE STATE, at the byte given; none where a field is absent or out of range, or where standby is on with a program
other than NONE (R80). Flags 7 to 2 are ignored (the log's row 67). -/
def zoneStateRecord (payload : List Byte) (at' : Nat) : Option ZoneRecord := do
  let program ← (payload[at']?).bind decodeProgram
  let listening ← (payload[at' + 1]?).bind fun b => listeningOfCode b.toNat
  let volume ← (payload[at' + 2]?).bind volumeOfByte
  let flags ← payload[at' + 3]?
  if flags.getLsbD 0 && program.isSome then none
  else
    return { program := program, listening := listening, volume := volume, mute := flags.getLsbD 1, standby := flags.getLsbD 0 }

/-- The four records of a ZONE STATE that passes the test of R80. -/
def zoneStateFields (payload : List Byte) : Option (Vector ZoneRecord 4) := do
  let r0 ← zoneStateRecord payload 0
  let r1 ← zoneStateRecord payload 4
  let r2 ← zoneStateRecord payload 8
  let r3 ← zoneStateRecord payload 12
  return #v[r0, r1, r2, r3]

/-- The output and role of a ROLE MAP that passes the test of R90, with its requester zone. -/
def roleMapFields (payload : List Byte) : Option (Zone × OutputNo × Option Role) := do
  let zone ← requesterZone payload
  let output ← (payload[2]?).bind zoneOfByte
  let role ← (payload[3]?).bind fun b => roleOfCode b.toNat
  return (zone, output, role)

/-- A band byte. -/
def bandAt (payload : List Byte) (i : Nat) : Option Band := (payload[i]?).bind fun b => bandOfCode b.toNat

/-- A frequency of three bytes, none where one of them is absent. -/
def frequencyAt (payload : List Byte) (i : Nat) : Option Nat :=
  if i + 3 ≤ payload.length then some (natOfBytes ((payload.drop i).take 3)) else none

/-- The band and frequency of a TUNE. -/
def tuneFields (payload : List Byte) : Option (Band × Nat) := do
  let band ← bandAt payload 2
  let freq ← frequencyAt payload 3
  return (band, freq)

/-- The direction of a SEEK: UP 0, DOWN 1. -/
def directionAt (payload : List Byte) : Option Direction :=
  (payload[2]?).bind fun b => if b == 0 then some .up else if b == 1 then some .down else none

/-- The preset number of a request, 1 to 30, as an index entry. -/
def presetAt (payload : List Byte) : Option (Fin 30) :=
  (payload[2]?).bind fun b => if h : 1 ≤ b.toNat ∧ b.toNat ≤ 30 then some ⟨b.toNat - 1, by omega⟩ else none

/-- The name of a PRESET STORE: a length byte of 0 to 8 and that many characters, each with a code from 32 to 126 (R166). -/
def nameAt (payload : List Byte) : Option (List Byte) :=
  (payload[3]?).bind fun len =>
    let name := (payload.drop 4).take len.toNat
    if len.toNat ≤ 8 && name.length == len.toNat && name.all nameCharOk then some name else none

/-- The band and page of a LIST READ. -/
def listReadFields (payload : List Byte) : Option (Band × Nat) := do
  let band ← bandAt payload 2
  let page ← (payload[3]?).bind fun b => inRange 0 3 b.toNat
  return (band, page)

/-- One output byte of a PRESENCE: role in bits 7 to 4, health in bits 3 to 0. -/
def announcementOfByte (b : Byte) : Option Announcement := do
  let role ← roleOfCode (b.extractLsb' 4 4).toNat
  let health ← healthOfCode (b.extractLsb' 0 4).toNat
  return { role := role, health := health }

/-- The joining flag of a PRESENCE, clear where its byte is absent. -/
def joiningFlag (payload : List Byte) : Bool := (payload[2]?).any (·.getLsbD 0)

/-- The content of a PRESENCE that passes the check of R35. Flags 7 to 2 and bits 7 and 6 of the kinds are ignored (the log's row 67). -/
def presenceFields (payload : List Byte) : Option PresenceContent := do
  let zone ← (payload[0]?).bind zoneOfByte
  let mode ← (payload[1]?).bind fun b => modeOfCode b.toNat
  let flags ← payload[2]?
  let o0 ← (payload[3]?).bind announcementOfByte
  let o1 ← (payload[4]?).bind announcementOfByte
  let o2 ← (payload[5]?).bind announcementOfByte
  let o3 ← (payload[6]?).bind announcementOfByte
  let kinds ← payload[7]?
  let kindA ← announcedKindOfCode (kinds.extractLsb' 4 2).toNat
  let kindB ← announcedKindOfCode (kinds.extractLsb' 2 2).toNat
  let kindT ← announcedKindOfCode (kinds.extractLsb' 0 2).toNat
  return { zone := zone, mode := mode, configInvalid := flags.getLsbD 1, joining := flags.getLsbD 0, outputs := #v[o0, o1, o2, o3],
           kindA := kindA, kindB := kindB, kindT := kindT }

end Sys2Proof.Machine
end

