-- ==== Sys2Proof/Machine/Flags.lean ====
section
/-! DEFINITION. The condition set (section 11.4), which is the part's status word: its entries, how an owner sets and clears one, and ATTN. -/

namespace Sys2Proof.Machine

/-- The entries of the condition set. -/
inductive Condition where
  | configInvalid
  | clockUnlocked
  | supplyLow
  | muteLine
  | outputFaulted (n : OutputNo)
  | outputRetired (n : OutputNo)
  | roleDuplicate (n : OutputNo)
  | streamNoSlot (source : Source)
  | programLost
  | decodeConceal
  | inputUnsupported (input : InputId)
deriving DecidableEq, Repr, Inhabited

def InputId.code : InputId → Nat
  | .a => 0
  | .b => 1

/-- The bit of an entry in the field of STATUS: rows of the table in order, indices ascending within a row (13.2). -/
def Condition.bit : Condition → Nat
  | .configInvalid => 0
  | .clockUnlocked => 1
  | .supplyLow => 2
  | .muteLine => 3
  | .outputFaulted n => 4 + n.val
  | .outputRetired n => 8 + n.val
  | .roleDuplicate n => 12 + n.val
  | .streamNoSlot src => 16 + Source.code src
  | .programLost => 19
  | .decodeConceal => 20
  | .inputUnsupported i => 21 + InputId.code i

/-- Whether an entry is held. -/
def Conditions.holds (c : Conditions) (k : Condition) : Bool := c.held.getLsbD k.bit

/-- An owner sets (true) or clears (false) an entry: a set or clear that alters the set is a change, and a change offers a STATUS (R182, R183). -/
def Conditions.put (c : Conditions) (k : Condition) (on : Bool) : Conditions :=
  if c.holds k == on then c
  else
    { held := if on then c.held ||| BitVec.twoPow 24 k.bit else c.held &&& ~~~(BitVec.twoPow 24 k.bit)
      statusDue := true }

/-- The part is held in reset while either cause holds (R186). -/
def State.inReset (s : State) : Bool := s.rc.powerOn || s.rc.nReset

/-- ATTN is driven low while the set holds an entry, and released in reset (R185). -/
def State.attnLow (s : State) : Bool := !s.inReset && s.cr.held != 0

def State.setCondition (s : State) (k : Condition) (on : Bool) : State := { s with cr := s.cr.put k on }

end Sys2Proof.Machine
end

