-- ==== Sys2Proof/Machine/Ops.lean ====
section
/-! DEFINITION. The operations every block shares: who the station is, the transmit queue with its offers and positions (chapter 2),
the contents of PRESENCE and STATUS, and the close of an event. -/

namespace Sys2Proof.Machine

/-! ## The station -/

def State.own (s : State) : Station := s.cl.station

/-- The zone of the image, or 0 if it is invalid (R74). -/
def State.ownZone (s : State) : Zone := s.cl.values.zone

def State.ownRecord (s : State) : ZoneRecord := s.zt.records[s.ownZone]

/-- The ROLE MAP override if one is set, otherwise the configured role (R85). -/
def State.currentRole (s : State) (n : OutputNo) : Option Role := (s.cl.overrides[n]).getD s.cl.values.roles[n]

/-- Out of reset and past the entry to JOINING: rounds begin at the station (R188). -/
def State.joined (s : State) : Bool := !s.inReset && s.cl.joined

/-- The station takes messages and hears slots once a round has begun at it (R23, R25). -/
def State.takes (s : State) : Bool := s.joined && s.rt.roundBegun

/-- A station may send round marks while it is JOINING, ACTIVE or SERVING (R5). -/
def State.mayMark (s : State) : Bool := s.pt.mode != .standby

/-- The inputs are powered while the station is JOINING, ACTIVE or SERVING (R93). -/
def State.inputsPowered (s : State) : Bool := s.joined && s.pt.mode != .standby

def State.isActive (s : State) : Bool := s.pt.mode == .active

/-! ## Records by name -/

def Publisher.get (p : Publisher) : Source → PubRecord
  | .a => p.recA
  | .b => p.recB
  | .t => p.recT

def Publisher.set (p : Publisher) (src : Source) (r : PubRecord) : Publisher :=
  match src with
  | .a => { p with recA := r }
  | .b => { p with recB := r }
  | .t => { p with recT := r }

def Inputs.get (i : Inputs) : InputId → InputRecord
  | .a => i.recA
  | .b => i.recB

def Inputs.set (i : Inputs) (id : InputId) (r : InputRecord) : Inputs :=
  match id with
  | .a => { i with recA := r }
  | .b => { i with recB := r }

/-- The source letter of a digital input. -/
def sourceOf : InputId → Source
  | .a => .a
  | .b => .b

def Pins.clock (p : Pins) : InputId → Bool
  | .a => p.clockA
  | .b => p.clockB

def Pins.setClock (p : Pins) (id : InputId) (on : Bool) : Pins :=
  match id with
  | .a => { p with clockA := on }
  | .b => { p with clockB := on }

def State.setOutput (s : State) (n : OutputNo) (o : OutputRecord) : State :=
  { s with om := { s.om with outputs := s.om.outputs.set n o } }

/-- One operation applied to each of the four outputs in turn. -/
def State.eachOutput (s : State) (f : State → OutputNo → State) : State := f (f (f (f s 0) 1) 2) 3

/-! ## The transmit queue (R26 to R28) -/

/-- A PRESENCE or STATUS takes the place of a pending message of its kind (R27). -/
def coalesces : Msg → Msg → Bool
  | .presence _, .presence _ => true
  | .status _, .status _ => true
  | _, _ => false

/-- A message enters at the end of its class (R26). -/
def enterQueue (q : List QueueEntry) (m : Msg) : List QueueEntry :=
  q.takeWhile (fun e => e.msg.cls ≤ m.cls) ++ { msg := m, inFlight := false } :: q.dropWhile (fun e => e.msg.cls ≤ m.cls)

/-- The queue without its youngest class-3 message that is not in flight; none where it holds no such message (R28). -/
def dropYoungest : List QueueEntry → Option (List QueueEntry)
  | [] => none
  | e :: rest =>
    match dropYoungest rest with
    | some rest' => some (e :: rest')
    | none => if e.msg.cls == 3 && !e.inFlight then some rest else none

/-- A content offered while its message is in flight is held aside (R27). -/
def LinkController.defer (lc : LinkController) (m : Msg) : LinkController :=
  match m with
  | .presence c => { lc with deferredPresence := some c }
  | .status c => { lc with deferredStatus := some c }
  | _ => lc

/-- An offered CLAIM or RELEASE that finds the queue full and nothing to displace is handed back (R28). -/
def LinkController.handsBack (lc : LinkController) (m : Msg) : Bool :=
  m.cls == 0 && 8 ≤ lc.queue.length && (dropYoungest lc.queue).isNone

/-- An offer to the transmit queue (R26 to R28): in place of a pending message of its kind, deferred, entered, entered over a displaced
message, or discarded. -/
def LinkController.offer (lc : LinkController) (m : Msg) : LinkController :=
  match lc.queue.find? (fun e => coalesces e.msg m) with
  | some e =>
    if e.inFlight then lc.defer m
    else { lc with queue := lc.queue.map fun e => if coalesces e.msg m then { e with msg := m } else e }
  | none =>
    if lc.queue.length < 8 then { lc with queue := enterQueue lc.queue m }
    else if m.cls == 0 then
      match dropYoungest lc.queue with
      | some q => { lc with queue := enterQueue q m }
      | none => lc
    else lc

/-- The deferred content of a message's kind, if one is held. -/
def LinkController.deferredFor (lc : LinkController) : Msg → Option Msg
  | .presence _ => lc.deferredPresence.map .presence
  | .status _ => lc.deferredStatus.map .status
  | _ => none

def LinkController.clearDeferred (lc : LinkController) : Msg → LinkController
  | .presence _ => { lc with deferredPresence := none }
  | .status _ => { lc with deferredStatus := none }
  | _ => lc

/-- The message this station has in flight. -/
def LinkController.inFlight (lc : LinkController) : Option Msg := (lc.queue.find? (·.inFlight)).map (·.msg)

/-- The position is this station's own when its message in flight has the arbitration field of the position (R20, R21). -/
def LinkController.isOwnPosition (lc : LinkController) (own : Station) (field : ArbField) : Bool :=
  field.sender == own && lc.inFlight.any fun m => m.cls == field.cls.toNat

/-- The message in flight stops being in flight and takes its deferred content in place (R20, R24, R27). -/
def LinkController.stopFlight (lc : LinkController) : LinkController :=
  match lc.inFlight with
  | none => lc
  | some m =>
    { lc.clearDeferred m with
      queue := lc.queue.map fun e => if e.inFlight then { msg := (lc.deferredFor m).getD e.msg, inFlight := false } else e }

/-- The own message is taken: it leaves the queue, and its deferred content is entered as a new message (R24, R27). -/
def LinkController.removeTaken (lc : LinkController) : LinkController :=
  match lc.inFlight with
  | none => lc
  | some m =>
    let rest := lc.queue.filter fun e => !e.inFlight
    { lc.clearDeferred m with
      queue := match lc.deferredFor m with
        | some d => enterQueue rest d
        | none => rest
      sendFlag := true }

/-- The end of a position of the control window: the own message is settled, and a contender that lost stops driving (R20, R24). -/
def LinkController.endPosition (lc : LinkController) (own : Station) (field : ArbField) (taken : Bool) (voidDriven : Bool) :
    LinkController :=
  let settled :=
    if lc.isOwnPosition own field then
      if taken then lc.removeTaken else { lc.stopFlight with sendFlag := true }
    else lc.stopFlight
  { settled with positions := lc.positions + 1, voidDriven := voidDriven }

/-- The next position of the window opens: a station whose send flag is clear and whose queue is not empty contends with the head of
its queue, which is in flight from here (R19, R20). -/
def LinkController.openPosition (lc : LinkController) : LinkController :=
  if lc.windowOpen && lc.positions < 8 && !lc.sendFlag then
    { lc with queue := match lc.queue with
        | [] => []
        | e :: rest => { e with inFlight := true } :: rest }
  else lc

/-- The end of the round mark, where the first position opens (R19): at the first take or void of the round, or at a step before it that finds no
command waiting. -/
def LinkController.endMark (lc : LinkController) : LinkController :=
  if lc.markOnLink then { (if lc.inFlight.isNone then lc.openPosition else lc) with markOnLink := false } else lc

/-- A round begin clears the send flag and starts the control window, whose first position opens at the end of the mark (R19). -/
def LinkController.beginRound (lc : LinkController) : LinkController :=
  { lc.stopFlight with sendFlag := false, windowOpen := true, markOnLink := true, positions := 0, voidDriven := false }

def State.endMark (s : State) : State := { s with lc := s.lc.endMark }

def State.offer (s : State) (m : Msg) : State := { s with lc := s.lc.offer m }

def State.offerReply (s : State) (requester : Requester) (kind : RequestKind) (outcome : ReplyOutcome) (value : Option Nat := none) : State :=
  s.offer (.reply { requester := requester, kind := kind, outcome := outcome, value := value })

/-- The requester of a request at its take: the sender and the zone carried; where that zone is absent or out of range the reply's
two-bit field is a free value. -/
def State.requesterAt (s : State) (sender : Station) (payload : List Byte) : Requester :=
  { station := sender, zone := (requesterZone payload).getD (Config.unstatedRequesterZone s.freeDraws) }

/-- The counter of the free values moves on. -/
def State.draw (s : State) : State := { s with freeDraws := s.freeDraws + 1 }

/-- A refusal of a request at its take. -/
def State.refuse (s : State) (sender : Station) (payload : List Byte) (kind : RequestKind) (outcome : ReplyOutcome) : State :=
  (s.offerReply (s.requesterAt sender payload) kind outcome).draw

/-! ## PRESENCE (R38, R39) -/

/-- The health an output announces (R38). -/
def healthOf (o : OutputRecord) : Health :=
  match o.state with
  | .retired => .retired
  | .faulted => .faulted
  | .off => if o.overload == 4 then .retired else .ok
  | .silent | .rampUp | .playing | .rampDown => .ok

/-- The kind announced for an input (R38). -/
def announcedKind : InputState → Option Kind
  | .pcm => some .pcm2
  | .packed => some .packed
  | .noSignal | .acquiring | .unsupported => none

/-- The content of the station's PRESENCE, from its own state (R38). -/
def State.presenceOf (s : State) : PresenceContent :=
  { zone := s.ownZone, mode := s.pt.mode, configInvalid := s.cr.holds .configInvalid, joining := s.pt.joinFlag,
    outputs := Vector.ofFn fun n => { role := s.currentRole n, health := healthOf s.om.outputs[n] },
    kindA := announcedKind s.ir.recA.state, kindB := announcedKind s.ir.recB.state,
    kindT := if s.cl.values.tunerFitted then some .pcm2 else none }

/-- A PRESENCE is to be offered in this event. -/
def State.announce (s : State) : State := { s with pt := { s.pt with presenceDue := true } }

/-- A PRESENCE is to be offered in this event if the content changed. -/
def State.announceIf (s : State) (changed : Bool) : State :=
  { s with pt := { s.pt with presenceDue := s.pt.presenceDue || changed } }

/-! ## STATUS (R183, R184) -/

/-- The content of the station's STATUS, from its own state (R184); a station without a tuner reports OFF, FM, 0, 0 and no (R162). -/
def State.statusOf (s : State) : StatusContent :=
  let fitted := s.cl.values.tunerFitted
  { conditions := s.cr.held, mode := s.pt.mode, clock := s.rt.discipline,
    tuner := if fitted then s.tb.state else .off, band := if fitted then s.tb.band else .fm,
    freq := if fitted then s.tb.freq else 0, level := if fitted then s.tb.level else 0, pilot := fitted && s.tb.pilot,
    decoder := s.pd.state, receiver := s.sr.state, outputs := Vector.ofFn fun n => s.om.outputs[n].state }

/-- A STATUS is to be offered in this event. -/
def State.reportStatus (s : State) : State := { s with cr := { s.cr with statusDue := true } }

/-! ## The close of an event -/

/-- The offers of STATUS and PRESENCE made in an event enter the queue with the content that the event leaves; no PRESENCE is offered before
the first one (R39, R183). -/
def State.closeEvent (s : State) : State :=
  let lc1 := if s.cr.statusDue then s.lc.offer (.status s.statusOf) else s.lc
  let lc2 := if s.pt.presenceDue && s.pt.firstOffered then lc1.offer (.presence s.presenceOf) else lc1
  { s with lc := lc2, cr := { s.cr with statusDue := false }, pt := { s.pt with presenceDue := false } }

/-- The close of an event that ends a position: the next position opens. -/
def State.closePosition (s : State) : State := { s.closeEvent with lc := s.closeEvent.lc.openPosition }

/-- The start of the takeover timer, counted from the last mark, at a station that may send marks and is not the sender (R6). -/
def State.startTakeover (s : State) : State := { s with rt := { s.rt with takeover := if s.rt.isSender then .stopped else .fromMark } }

end Sys2Proof.Machine
end

