-- ==== Sys2Proof/Machine/Matrix.lean ====
section
/-! DEFINITION. The mix matrix (chapter 7): roles and sets, the fold table, rebuild and swap, channel frames, and the output sample
with its pulse width (R116 to R124, R141). -/

namespace Sys2Proof.Machine

/-- The role at a place of the role order. -/
def roleAt (i : Fin 8) : Role := allRoles.getD i.val .fl

/-- The set of the roles that satisfy a test. -/
def setOf (test : Role → Bool) : RoleSet := BitVec.ofNat 8 (allRoles.foldl (fun n r => 2 * n + if test r then 1 else 0) 0)

/-- The speaker set: the roles whose holder is not none (section 5.4). -/
def ZoneTable.speakerSet (zt : ZoneTable) : RoleSet := setOf fun r => (zt.holders.toList.getD (Role.code r) none).isSome

/-- The front pair of STEREO mode (R117). -/
def frontPair : RoleSet := setOf fun r => r == .fl || r == .fr

/-- Steps 1 and 2 of the fold table (R118). -/
def foldSteps : Role → List (List Role × Coef)
  | .fl => [([.c], .root), ([.sl], .root)]
  | .fr => [([.c], .root), ([.sr], .root)]
  | .c => [([.fl, .fr], .root), ([.sl, .sr], .half)]
  | .lfe => [([.fl, .fr], .half), ([.c], .half)]
  | .sl => [([.bl], .one), ([.fl], .root)]
  | .sr => [([.br], .one), ([.fr], .root)]
  | .bl => [([.sl], .one), ([.fl], .root)]
  | .br => [([.sr], .one), ([.fr], .root)]

/-- The coefficient of one row and column (R117, R118): the direct route, the drop of DIRECT mode, the first step of the fold table that
names a role of the effective set, or step 3. -/
def coefAt (layout effective : RoleSet) (mode : ListeningMode) (row col : Role) : Coef :=
  if !hasRole layout col || !hasRole effective row then .zero
  else if hasRole effective col then if row = col then .one else .zero
  else if mode = .direct then .zero
  else
    match (foldSteps col).find? fun step => step.1.any (hasRole effective) with
    | some step => if row ∈ step.1 then step.2 else .zero
    | none => .half

/-- A matrix built from a layout and an effective set (R117). -/
def buildMatrix (layout effective : RoleSet) (mode : ListeningMode) : Matrix :=
  { layout := layout, effective := effective,
    rows := Vector.ofFn fun r => Vector.ofFn fun c => coefAt layout effective mode (roleAt r) (roleAt c) }

/-- The derived layout of a PCM2 program (R116). -/
def derivedLayout : ListeningMode → RoleSet
  | .surround => setOf fun r => r == .fl || r == .fr || r == .c || r == .sl || r == .sr
  | .stereo => frontPair
  | .direct => frontPair

/-- The layout of a rebuild (R117). -/
def State.matrixLayout (s : State) : RoleSet :=
  match s.sr.programKind with
  | some .packed => s.pd.confirmed.getD 0
  | some .pcm2 => derivedLayout s.ownRecord.listening
  | none => 0

/-- The effective set of a rebuild (R117). -/
def State.matrixEffective (s : State) : RoleSet :=
  if s.ownRecord.listening = .stereo then s.zt.speakerSet &&& frontPair else s.zt.speakerSet

/-- The rebuild of the pending matrix from the inputs as they stand; sets the dirty flag (R120). -/
def State.rebuild (s : State) : State :=
  { s with mm := { s.mm with pending := buildMatrix s.matrixLayout s.matrixEffective s.ownRecord.listening, dirty := true } }

/-- The rebuild where a condition calls for it. -/
def State.rebuildIf (s : State) (b : Bool) : State :=
  { s with mm := if b then s.rebuild.mm else s.mm }

/-- The pending matrix becomes the active one where it has been rebuilt. -/
def MixMatrix.exchange (mm : MixMatrix) : MixMatrix :=
  { mm with active := if mm.dirty then mm.pending else mm.active, dirty := false }

/-- The swap of a round begin, unless it has been made before a rebuild that belongs to the round begin (R121). -/
def MixMatrix.swap (mm : MixMatrix) : MixMatrix := if mm.swapped then { mm with swapped := false } else mm.exchange

/-- An event that stands for a step of the coming round begin. Where it rebuilds the pending matrix the swap of that round begin is made before it,
so that the rebuild waits for the next one (R121). -/
def State.atRoundBegin (s : State) (act : State → State) : State :=
  if s.mm.swapped then act s
  else
    let t := act { s with mm := { s.mm.exchange with swapped := true } }
    if t.mm.dirty then t else { t with mm := { s.mm with frame := t.mm.frame } }

/-! ## Channel frames -/

/-- A frame whose channel of each role is given, at the gain 10^(gain80/80). -/
def frameOf (gain80 : Int) (channel : Role → Option (List Int)) : Frame :=
  { gain80 := gain80, channels := Vector.ofFn fun i => channel (roleAt i) }

/-- The frame of a PCM2 round from its samples (R116); a sample is a fraction of 2^23, so the frame's unit of 2^-24 holds halves. -/
def pcmFrame (mode : ListeningMode) (pairs : List (Sample × Sample)) : Frame :=
  frameOf 0 fun role =>
    match role, mode with
    | .fl, _ => some (pairs.map fun p => 2 * p.1.toInt)
    | .fr, _ => some (pairs.map fun p => 2 * p.2.toInt)
    | .c, .surround => some (pairs.map fun p => p.1.toInt + p.2.toInt)
    | .sl, .surround => some (pairs.map fun p => p.1.toInt - p.2.toInt)
    | .sr, .surround => some (pairs.map fun p => p.2.toInt - p.1.toInt)
    | _, _ => none

/-- The block gain in quarter decibels, as an exponent of 10^(1/80): -(31 - d) dB plus r quarter decibels, with d read as 31 for 0 (R105). -/
def blockGain80 (b : PackedBlock) : Int := 4 * ((if b.dialogue = 0 then 31 else (b.dialogue : Int)) - 31) + b.rangeGain

/-- The channel frame of a valid block: a sample is m/512 times 2^(-e) (R105). -/
def blockFrame (b : PackedBlock) : Frame :=
  { gain80 := blockGain80 b,
    channels := Vector.ofFn fun i => (b.channels[i]).map fun ch => ch.mantissas.map fun m => m * 2 ^ (15 - ch.exponent) }

/-- A frame at a number of decibels less. -/
def Frame.attenuate (f : Frame) (db : Nat) : Frame := { f with gain80 := f.gain80 - 4 * db }

/-! ## The output sample and its width (R123, R124, R141) -/

/-- A coefficient in thousandths. -/
def coefMilli : Coef → Int
  | .zero => 0
  | .half => 500
  | .root => 707
  | .one => 1000

/-- Sample i of a channel; an absent channel counts as zero. -/
def Frame.sample (f : Frame) (c : Fin 8) (i : Nat) : Int := ((f.channels[c]).getD []).getD i 0

/-- The matrix sum of a role for sample period i, in units of 2^-24 / 1000 (R123). -/
def matrixSum (m : Matrix) (f : Frame) (role : Option Role) (i : Nat) : Int :=
  match role with
  | none => 0
  | some r =>
    (List.finRange 8).foldl
      (fun sum c => sum + coefMilli ((m.rows.toList.getD (Role.code r) (Vector.replicate 8 .zero))[c]) * f.sample c i) 0

/-- Whether num/den times 10^(e/80) is at least k - 1/2, decided exactly: both sides to the power 80. -/
def atLeastHalfBelow (num den k : Nat) (e : Int) : Bool :=
  if 0 ≤ e then ((2 * k - 1) * den) ^ 80 ≤ (2 * num) ^ 80 * 10 ^ e.toNat
  else ((2 * k - 1) * den) ^ 80 * 10 ^ (-e).toNat ≤ (2 * num) ^ 80

/-- The nearest whole number to num/den times 10^(e/80), halves upward, saturated at 120. -/
def nearest120 (num den : Nat) (e : Int) : Nat :=
  ((List.range 120).filter fun j => atLeastHalfBelow num den (j + 1) e).length

/-- The pulse width of a matrix sum: 128 plus 120 times the sample of R124, rounded with halves away from 128 (R141). The sample is the sum,
times the volume gain 10^(-attenuation/40), zero at 160, times ramp/16, saturated to -1 to +1. -/
def widthOfSum (sum : Int) (gain80 : Int) (atten ramp : Nat) : Nat :=
  if atten = 160 then 128
  else
    let k := nearest120 (120 * ramp * sum.natAbs) (16 * 1000 * 2 ^ 24) (gain80 - 2 * atten)
    if sum < 0 then 128 - k else 128 + k

end Sys2Proof.Machine
end

