-- ==== Sys2Proof/Machine/Decoder.lean ====
section
/-! DEFINITION. The packed decoder (R104 to R115): when it runs, and what each block it is handed does. -/

namespace Sys2Proof.Machine

/-- What the receiver hands the decoder for a presented round: a block (none where it is bad, R104), a muted block, or nothing. -/
inductive Handed where
  | block (b : Option PackedBlock)
  | muted
  | nothing
deriving DecidableEq, Repr

/-- What a handed block leaves: the record, the frame of the round, and whether a layout was confirmed. -/
structure Decoded where
  decoder : Decoder
  frame : Frame
  confirms : Bool
deriving DecidableEq, Repr

/-- A record with the frame of silence and no confirmation. -/
def Decoded.silent (d : Decoder) : Decoded := { decoder := d, frame := Frame.silence, confirms := false }

/-- CONFIRM with a block as the reference (R108, R109). -/
def Decoder.refer (d : Decoder) (b : PackedBlock) : Decoder :=
  { d with state := .confirm, reference := some (b.counter, b.layout) }

/-- A valid block in LOCKED, or on the return from CONCEAL to LOCKED (R110, R111, R113). -/
def Decoder.play (d : Decoder) (b : PackedBlock) : Decoded :=
  let same := d.confirmed == some b.layout
  let again := d.candidate == some b.layout
  { decoder := { d with state := .locked, conceal := 0, lastGood := some (blockFrame b),
                        confirmed := if same || again then some b.layout else d.confirmed,
                        candidate := if same || again then none else some b.layout }
    frame := blockFrame b
    confirms := !same && again }

/-- A valid block in CONFIRM (R109). -/
def Decoder.confirm (d : Decoder) (b : PackedBlock) : Decoded :=
  if d.reference.any fun r => b.counter == r.1 + 1 && b.layout == r.2 then
    { decoder := { d with state := .locked, reference := none, confirmed := some b.layout, candidate := none, conceal := 0,
                          lastGood := some (blockFrame b) }
      frame := Frame.silence
      confirms := true }
  else Decoded.silent (d.refer b)

/-- A bad block in LOCKED or CONCEAL with the conceal count that it brings (R112, R113). -/
def Decoder.concealAt (d : Decoder) (count : Nat) : Decoded :=
  if count ≤ 3 then
    { decoder := { d with state := .conceal, conceal := count, candidate := none }
      frame := (d.lastGood.getD Frame.silence).attenuate (6 * count)
      confirms := false }
  else Decoded.silent { d with state := .hunt, conceal := 0, lastGood := none }

/-- The transition table of section 7.5 for a block. -/
def Decoder.onBlock (d : Decoder) : Option PackedBlock → Decoded
  | some b =>
    match d.state with
    | .off => Decoded.silent d
    | .hunt => Decoded.silent (d.refer b)
    | .confirm => d.confirm b
    | .locked => d.play b
    | .conceal => d.play b
  | none =>
    match d.state with
    | .off => Decoded.silent d
    | .hunt => Decoded.silent d
    | .confirm => Decoded.silent { d with state := .hunt, reference := none }
    | .locked => d.concealAt 1
    | .conceal => d.concealAt (d.conceal + 1)

/-- What the decoder makes of what it is handed; a muted block, or nothing, changes no field (R114). -/
def Decoder.onHanded (d : Decoder) : Handed → Decoded
  | .block b => d.onBlock b
  | .muted => Decoded.silent d
  | .nothing => Decoded.silent d

/-- The decoder runs while the station is ACTIVE and the program kind is PACKED (R106). -/
def State.decoderRuns (s : State) : Bool := s.joined && s.isActive && s.sr.programKind == some .packed

/-- Entry to OFF where a run condition fails, and to HUNT where both come to hold (R106, R107). A confirmed layout that is lost rebuilds
the pending matrix (R120). -/
def State.checkDecoder (s : State) : State :=
  let stops := !s.decoderRuns && s.pd.state != .off
  let starts := s.decoderRuns && s.pd.state == .off
  let s1 := { s with
    pd := if stops then Decoder.reset else if starts then { s.pd with state := .hunt } else s.pd
    cr := if stops then s.cr.put .decodeConceal false else s.cr }
  s1.rebuildIf (stops && s.pd.confirmed.isSome)

/-- The receiver hands the decoder the block of a round: the record, the frame of the round, DECODE_CONCEAL and a rebuild at a
confirmation (R109, R111, R115). -/
def State.decode (s : State) (h : Handed) : State :=
  let r := s.pd.onHanded h
  let s1 := { s with
    pd := r.decoder
    mm := { s.mm with frame := r.frame }
    cr := s.cr.put .decodeConceal (r.decoder.state == DecoderState.conceal) }
  s1.rebuildIf r.confirms

end Sys2Proof.Machine
end

