-- ==== Sys2Proof/Machine/Outputs.lean ====
section
/-! DEFINITION. The output modulators (chapter 8): output states, the go condition, ramps, cuts, volume, faults and widths. -/

namespace Sys2Proof.Machine

/-! ## Entries to the states without a ramp (R125, R126) -/

/-- The set of states in which an output sounds (R131). -/
def OutState.sounding : OutState → Bool
  | .rampUp | .playing | .rampDown => true
  | .off | .silent | .faulted | .retired => false

/-- Entry to OFF: the stage is disabled at once and the position is 0. -/
def OutputRecord.toOff (o : OutputRecord) : OutputRecord := { o with state := .off, ramp := 0, recovery := 0, recovered := 0, enabled := false }

/-- Entry to SILENT: the position is 0; a disabled stage is enabled at the next carrier boundary. -/
def OutputRecord.toSilent (o : OutputRecord) : OutputRecord := { o with state := .silent, ramp := 0, recovery := 0, recovered := 0 }

/-- Entry to SILENT in an ACTIVE station, to OFF in another (R129, R130, R134, R91). -/
def OutputRecord.toRest (o : OutputRecord) (active : Bool) : OutputRecord := if active then o.toSilent else o.toOff

/-- Entry to FAULTED, or a fault in FAULTED: a recovery count of 250 (R133). -/
def OutputRecord.toFaulted (o : OutputRecord) : OutputRecord := { o with state := .faulted, ramp := 0, recovery := 250, recovered := 0, enabled := false }

/-- Entry to RETIRED (R135). -/
def OutputRecord.toRetired (o : OutputRecord) : OutputRecord := { o with state := .retired, ramp := 0, recovery := 0, recovered := 0, enabled := false }

/-! ## The go condition (R127, R128) -/

/-- What both forms of the go condition ask of an output. -/
def State.goCommon (s : State) (n : OutputNo) : Bool :=
  s.joined && s.isActive && s.om.outputs[n].roleStatus == .effective && s.ownRecord.program.isSome && !s.ownRecord.mute
    && s.sr.state == .running && s.sr.target.isNone && s.sm == .normal && !s.pins.mute

/-- The start form: the clock is LOCKED. -/
def State.goStart (s : State) (n : OutputNo) : Bool := s.goCommon n && s.rt.discipline == .locked

/-- The continue form: the clock is LOCKED or in HOLDOVER. -/
def State.goContinue (s : State) (n : OutputNo) : Bool :=
  s.goCommon n && (s.rt.discipline == .locked || s.rt.discipline == .holdover)

/-- The table of R128. -/
def OutputRecord.evaluate (o : OutputRecord) (start continues : Bool) : OutputRecord :=
  match o.state with
  | .silent => if start then { o with state := .rampUp, ramp := 0 } else o
  | .rampDown => if start then { o with state := .rampUp } else o
  | .rampUp => if continues then o else { o with state := .rampDown }
  | .playing => if continues then o else { o with state := .rampDown }
  | .off | .faulted | .retired => o

/-- The same change made to each output record. -/
def State.mapOutputs (s : State) (f : OutputNo → OutputRecord → OutputRecord) : State :=
  { s with om := { s.om with outputs := Vector.ofFn fun n => f n s.om.outputs[n] } }

/-- The go condition of every output is evaluated (R128). -/
def State.evalGo (s : State) : State := s.mapOutputs fun n o => o.evaluate (s.goStart n) (s.goContinue n)

/-! ## Ramps, cuts, volume and decay -/

/-- One step of the ramp of an output (R129). A ramp that stands at its end already, after a turn at one round begin (R48), ends there: the model's
choice (the log's row 44). -/
def OutputRecord.rampMove (o : OutputRecord) (active : Bool) : OutputRecord :=
  match o.state with
  | .rampUp => if 15 ≤ o.ramp then { o with state := .playing, ramp := 16 } else { o with ramp := o.ramp + 1 }
  | .rampDown => if o.ramp ≤ 1 then o.toRest active else { o with ramp := o.ramp - 1 }
  | .off | .silent | .playing | .faulted | .retired => o

/-- The ramp step of one output at a round begin, unless a command has made it (R129). -/
def OutputRecord.rampStep (o : OutputRecord) (active : Bool) : OutputRecord :=
  if o.taken.ramp then { o with taken := { o.taken with ramp := false } } else o.rampMove active

/-- The ramp step of the coming round begin, made by a command. -/
def OutputRecord.rampAhead (o : OutputRecord) (active : Bool) : OutputRecord :=
  let moved := o.rampMove active
  { moved with taken := { moved.taken with ramp := true } }

/-- The ramp step of a round begin; an entry to SILENT evaluates the go condition (R129). -/
def State.rampStep (s : State) : State := (s.mapOutputs fun _ o => o.rampStep s.isActive).evalGo

/-- A cut of one output (R130). In a station that is not ACTIVE the output is OFF after the cut, where an assertion that follows is no fault,
although the first row of R137 names FAULTED for both orders: the model's choice (the log's row 54). -/
def OutputRecord.cut (o : OutputRecord) (active : Bool) : OutputRecord := if o.state.sounding then o.toRest active else o

/-- A cut of every output, and the evaluation that an entry to SILENT makes (R130). -/
def State.cut (s : State) : State := (s.mapOutputs fun _ o => o.cut s.isActive).evalGo

/-- One step of the current attenuation toward the own zone's volume (R132). -/
def OutputRecord.slew (o : OutputRecord) (volume : Nat) : OutputRecord :=
  { o with atten := if o.atten < volume then o.atten + 1 else if volume < o.atten then o.atten - 1 else o.atten }

/-- One step of the decay of an output (R136). -/
def OutputRecord.decayMove (o : OutputRecord) : OutputRecord :=
  if 1 ≤ o.overload ∧ o.overload ≤ 3 then
    if 4095 ≤ o.decay then { o with overload := o.overload - 1, decay := 0 } else { o with decay := o.decay + 1 }
  else o

/-- The decay step of one output at a round begin, unless a command has made it or a fault taken first there leaves it out (R136). With a fault at
the same round begin R136 states one overload count for both orders and describes steps that give two; the model gives what each order's steps give
(the log's row 45). -/
def OutputRecord.decayStep (o : OutputRecord) : OutputRecord :=
  if o.taken.decay then { o with taken := { o.taken with decay := false } } else o.decayMove

/-- The next decay step takes one from the overload count. -/
def OutputRecord.decayDue (o : OutputRecord) : Bool := 1 ≤ o.overload && o.overload ≤ 3 && 4095 ≤ o.decay

/-- The decay step of the coming round begin, made by a command. -/
def OutputRecord.decayAhead (o : OutputRecord) : OutputRecord :=
  let moved := o.decayMove
  { moved with taken := { moved.taken with decay := true } }

/-! ## Faults (R133 to R135) -/

/-- The states in which the assertion of a fault line is a fault. -/
def OutState.countsFaults : OutState → Bool
  | .silent | .rampUp | .playing | .rampDown | .faulted => true
  | .off | .retired => false

/-- The assertion of an output's fault line is a fault: in a state that counts faults, and in an output left OFF by the end of its recovery where
both fall at one round begin, the last one or the coming one (R133, R137). -/
def OutputRecord.faultable (o : OutputRecord) (edge : FaultEdge) : Bool :=
  match edge with
  | .asserts => o.state.countsFaults
  | .assertsAtRoundBegin => o.state.countsFaults || o.recovered == 1
  | .assertsAheadOfRoundBegin => o.state.countsFaults || o.recovered == 2
  | .releases => false

/-- An output at one more fault: FAULTED, or RETIRED at the fourth (R133, R135). -/
def OutputRecord.fault (o : OutputRecord) : OutputRecord :=
  let counted := { o with overload := o.overload + 1, decay := 0 }
  if o.overload + 1 < 4 then counted.toFaulted else counted.toRetired

/-- A fault of an output: the record, the conditions and the change of health (R131, R133, R135). -/
def State.countFault (s : State) (n : OutputNo) : State :=
  let o := s.om.outputs[n]
  let retires := 4 ≤ o.overload + 1
  let s1 := s.setOutput n o.fault
  let s2 := (s1.setCondition (.outputFaulted n) (!retires)).setCondition (.outputRetired n) retires
  s2.announceIf (healthOf o != healthOf o.fault)

/-- A fault where a condition calls for it. -/
def State.countFaultIf (s : State) (n : OutputNo) (b : Bool) : State := if b then s.countFault n else s

/-- The end of recovery of an output (R134): OK and at rest, or at once another fault where the line is still asserted. OUTPUT_FAULTED is cleared
and a PRESENCE offered in both cases, so that STATUS and PRESENCE are offered with the line asserted too: the model's reading (the log's row 35). -/
def State.endRecovery (s : State) (n : OutputNo) : State :=
  let o := s.om.outputs[n]
  let s1 := ((s.setOutput n (o.toRest s.isActive)).setCondition (.outputFaulted n) false).announce
  let s2 :=
    if s.pins.faultLines[n] then
      let back := s1.setOutput n { o with recovery := 0 }
      back.countFault n
    else s1
  s2.evalGo

/-- After a fault at the coming round begin, taken before its steps, that round begin makes no decay step, and leaves a recovery count that
starts there (R136, R137). -/
def OutputRecord.holdSteps (o : OutputRecord) : OutputRecord := { o with taken := { o.taken with decay := true, recovery := true } }

/-- The coming round begin makes no ramp step at an output: a ramp that starts there stands at 0 (R129). -/
def State.holdRamp (s : State) (n : OutputNo) : State :=
  s.setOutput n { s.om.outputs[n] with taken := { (s.om.outputs[n]).taken with ramp := true } }

/-- A fault of an output is taken first at the coming round begin. -/
def State.holdSteps (s : State) (n : OutputNo) : State := s.setOutput n s.om.outputs[n].holdSteps

/-- The same where a condition calls for it. -/
def State.holdStepsIf (s : State) (n : OutputNo) (b : Bool) : State := if b then s.holdSteps n else s

/-- An output left OFF by the end of its recovery has recovered at the last round begin (1) or the coming one (2). -/
def OutputRecord.recoverAt (o : OutputRecord) (begins : Nat) : OutputRecord :=
  { o with recovered := if o.state == .off then begins else 0 }

/-- The end of recovery at the last round begin (1) or the coming one (2). -/
def State.recoverAt (s : State) (n : OutputNo) (begins : Nat) : State :=
  let s1 := s.endRecovery n
  s1.setOutput n (s1.om.outputs[n].recoverAt begins)

/-- The recovery step of a round begin for one output, unless a fault at that round begin has been taken before it (R134, R137). -/
def State.recoveryStep (s : State) (n : OutputNo) : State :=
  let o := s.om.outputs[n]
  if o.taken.recovery then s.setOutput n { o with recovered := o.recovered - 1, taken := { o.taken with recovery := false } }
  else if o.state == .faulted && o.recovery ≤ 1 then s.recoverAt n 1
  else s.setOutput n { o with recovery := o.recovery - 1, recovered := o.recovered - 1 }

/-! ## Mode changes and ROLE MAP (R43 to R45, R91) -/

/-- Entry to ACTIVE of one output: OFF goes to SILENT, or to RETIRED with an overload count of 4; an asserted line counts a fault (R43, R133). -/
def State.activateOutput (s : State) (n : OutputNo) : State :=
  let o := s.om.outputs[n]
  if o.state == .off then
    if o.overload == 4 then (s.setOutput n o.toRetired).setCondition (.outputRetired n) true
    else (s.setOutput n o.toSilent).countFaultIf n s.pins.faultLines[n]
  else s

/-- Entry to SERVING of one output: SILENT goes to OFF (R44). -/
def State.quietOutput (s : State) (n : OutputNo) : State :=
  let o := s.om.outputs[n]
  if o.state == .silent then s.setOutput n o.toOff else s

/-- Entry to STANDBY of one output: OFF at once, OUTPUT_FAULTED cleared (R45). -/
def State.standbyOutput (s : State) (n : OutputNo) : State :=
  let o := s.om.outputs[n]
  ((s.setOutput n o.toOff).setCondition (.outputFaulted n) false).announceIf (healthOf o != healthOf o.toOff)

/-- What an accepted ROLE MAP does to the output's record: no overload, not retired (R91). -/
def State.restoreOutput (s : State) (n : OutputNo) : State :=
  let o := { s.om.outputs[n] with overload := 0, decay := 0 }
  let s1 := s.setCondition (.outputRetired n) false
  if o.state == .retired then (s1.setOutput n (o.toRest s.isActive)).countFaultIf n (s.isActive && s.pins.faultLines[n])
  else s1.setOutput n o

/-! ## Widths (R141, R142) -/

/-- The width of an output in the sample period given. -/
def State.widthNow (s : State) (n : OutputNo) (period : Nat) : Nat :=
  let o := s.om.outputs[n]
  if o.state.sounding then
    widthOfSum (matrixSum s.mm.active s.mm.frame (s.currentRole n) period) s.mm.frame.gain80 o.atten o.ramp
  else 128

/-- A carrier boundary of one output: the width buffer is loaded, and a stage whose state is an enabling one is enabled with the idle width. -/
def State.boundaryOutput (s : State) (period : Nat) (n : OutputNo) (o : OutputRecord) : OutputRecord :=
  let enabling := o.state == .silent || o.state.sounding
  { o with width := if enabling && !o.enabled then 128 else s.widthNow n period, enabled := enabling }

/-- The sample period that contains the boundary: eight boundaries to a period, the last period held until the next round begin. -/
def OutputModulators.period (om : OutputModulators) : Nat := min (om.carrier / 8) 47

end Sys2Proof.Machine
end

