-- ==== Sys2Proof/Machine/Slots.lean ====
section
/-! DEFINITION. The slot table (sections 4.1 and 4.2): runs, the claim test, first-fit placement, release, header judgement, expiry and
correction. -/

namespace Sys2Proof.Machine

/-- The 24 entries of the slot table; none is FREE. -/
abbrev SlotTable := Vector (Option SlotEntry) 24

/-- Whether a slot lies in the run of a kind from a start. -/
def inRun (kind : Kind) (start slot : Nat) : Bool := start ≤ slot && slot < start + widthOf kind

/-- The run of a stream, as its first slot holds it. -/
def runOf (st : SlotTable) (stream : Stream) : Option SlotEntry := (st.toList.find? fun e => e.any (·.stream == stream)).join

/-- Whether any held run is owned by a station (R40). -/
def ownsRun (st : SlotTable) (owner : Station) : Bool := st.toList.any fun e => e.any (·.stream.station == owner)

/-- The slots that a station holds outside the runs of the streams given. -/
def heldOutside (st : SlotTable) (owner : Station) (freed : Stream → Bool) : Nat :=
  (st.toList.filter fun e => e.any fun x => x.stream.station == owner && !freed x.stream).length

/-- The runs of the streams given become FREE. -/
def freeRuns (st : SlotTable) (freed : Stream → Bool) : SlotTable :=
  st.map fun e => if e.any fun x => freed x.stream then none else e

/-- A run is written as HELD with silence counts of 0 (R50, R56). -/
def placeRun (st : SlotTable) (stream : Stream) (kind : Kind) (start : SlotNo) : SlotTable :=
  Vector.ofFn fun i =>
    if inRun kind start.val i.val then some { stream := stream, kind := kind, start := start, silence := 0 } else st[i]

/-- The streams whose held runs are in the table and satisfy a test, one entry per slot. -/
def streamsIn (st : SlotTable) (test : Stream → Bool) : List Stream :=
  st.toList.filterMap fun e => match e with
    | some x => if test x.stream then some x.stream else none
    | none => none

/-- Whether a run may be placed for a stream: inside the 24 slots, over no slot of another run, and within the station's 8 slots
(R50, R51). -/
def placementFits (st : SlotTable) (stream : Stream) (kind : Kind) (start : SlotNo) : Bool :=
  start.val + widthOf kind ≤ 24
    && ((List.finRange 24).all fun i => !inRun kind start.val i.val || !(st[i].any fun x => x.stream != stream))
    && heldOutside st stream.station (· == stream) + widthOf kind ≤ 8

/-- First-fit placement (R51). -/
def firstFit (st : SlotTable) (stream : Stream) (kind : Kind) : Option SlotNo :=
  (List.finRange 24).find? fun start => placementFits st stream kind start

/-- The test of a CLAIM (R50); fields that are absent or out of range refuse it (R192). -/
def claimAccepted (st : SlotTable) (sender : Station) : Option (Stream × Kind × SlotNo) → Bool
  | some (stream, kind, start) => stream.station == sender && placementFits st stream kind start
  | none => false

/-- A table after an event, with the streams whose runs were freed by it (R53). -/
structure TableChange where
  table : SlotTable
  freed : List Stream
deriving DecidableEq, Repr

/-- The slot table at a CLAIM (R50). -/
def takeClaim (st : SlotTable) (sender : Station) (fields : Option (Stream × Kind × SlotNo)) : TableChange :=
  match fields with
  | some (stream, kind, start) =>
    if claimAccepted st sender fields then
      { table := placeRun (freeRuns st (· == stream)) stream kind start, freed := streamsIn st (· == stream) }
    else { table := st, freed := [] }
  | none => { table := st, freed := [] }

/-- The slot table at a RELEASE (R52). -/
def takeRelease (st : SlotTable) (sender : Station) (field : Option Stream) : TableChange :=
  match field with
  | some stream =>
    if stream.station == sender then { table := freeRuns st (· == stream), freed := streamsIn st (· == stream) }
    else { table := st, freed := [] }
  | none => { table := st, freed := [] }

/-! ## Slot headers -/

/-- The low eight bits of the round before a round (R54, R65). -/
def captureByte (number : RoundNo) : Byte := (number - 1).setWidth 8

/-- The valid header of a slot, with the data (R54). -/
def validHeader (number : Option RoundNo) (slot : SlotNo) (heard : List Byte) : Option (SlotHeader × List Byte) :=
  match number, readSlot slot heard with
  | some m, some (h, data) => if h.capture == captureByte m then some (h, data) else none
  | _, _ => none

/-- The start of the run that a header implies. -/
def impliedStart (slot : SlotNo) (h : SlotHeader) : SlotNo := ⟨slot.val - h.part, by omega⟩

/-- A header agrees with an entry (R55). -/
def headerAgrees (slot : SlotNo) (h : SlotHeader) (e : SlotEntry) : Bool :=
  e.stream == h.stream && e.kind == h.kind && e.start == impliedStart slot h

/-- The runs that a correction frees: those that overlap the implied run, and any other run of the stream (R56). -/
def freedByCorrection (st : SlotTable) (slot : SlotNo) (h : SlotHeader) (stream : Stream) : Bool :=
  stream == h.stream
    || (List.finRange 24).any fun i => inRun h.kind (impliedStart slot h).val i.val && st[i].any fun x => x.stream == stream

/-- Header correction, none where the limit test forbids it (R56). -/
def correctTable (st : SlotTable) (slot : SlotNo) (h : SlotHeader) : Option TableChange :=
  let freed := freedByCorrection st slot h
  if heldOutside st h.stream.station freed + widthOf h.kind ≤ 8 then
    some { table := placeRun (freeRuns st freed) h.stream h.kind (impliedStart slot h), freed := streamsIn st freed }
  else none

/-- The silence count of a held slot increases, and at 8 its run is freed (R55). -/
def countSilence (st : SlotTable) (slot : SlotNo) : TableChange :=
  match st[slot] with
  | some e =>
    if 7 ≤ e.silence then { table := freeRuns st (· == e.stream), freed := streamsIn st (· == e.stream) }
    else { table := st.set slot (some { e with silence := e.silence + 1 }), freed := [] }
  | none => { table := st, freed := [] }

/-- The slot table at the end of a slot (R55, R56). -/
def judgeSlot (st : SlotTable) (slot : SlotNo) (header : Option SlotHeader) : TableChange :=
  match header with
  | none => countSilence st slot
  | some h =>
    match st[slot] with
    | some e =>
      if headerAgrees slot h e then { table := st.set slot (some { e with silence := 0 }), freed := [] }
      else (correctTable st slot h).getD (countSilence st slot)
    | none => (correctTable st slot h).getD { table := st, freed := [] }

end Sys2Proof.Machine
end

