-- ==== Sys2Proof/Machine/Publisher.lean ====
section
/-! DEFINITION. The stream publisher (section 4.3): demand, settling, the take of its own messages, and the slots it sends. -/

namespace Sys2Proof.Machine

/-- The stream of a local source. -/
def State.ownStream (s : State) (src : Source) : Stream := { station := s.own, source := src }

/-- The record for T exists only where a tuner is fitted (section 4.3). -/
def State.hasSource (s : State) (src : Source) : Bool := src != .t || s.cl.values.tunerFitted

/-- Some zone record names a stream as program (R58). -/
def ZoneTable.names (zt : ZoneTable) (stream : Stream) : Bool := zt.records.toList.any fun r => r.program == some stream

/-- Demand for a stream of this station (R40, R58). -/
def State.demanded (s : State) (src : Source) : Bool := s.hasSource src && s.zt.names (s.ownStream src)

/-- The publisher makes no offer in the join window (R66). -/
def State.publishes (s : State) (src : Source) : Bool := s.joined && s.pt.mode != .joining && s.hasSource src

def State.setPub (s : State) (src : Source) (r : PubRecord) : State := { s with sp := s.sp.set src r }

/-- A new state of a record and the message it offers. -/
structure Settlement where
  state : PubState
  offer : Option Msg
deriving DecidableEq, Repr

/-- The table of R59. A record in RECLAIMING stays there when the take of its RELEASE offers the CLAIM (R64). -/
def State.settlement (s : State) (src : Source) (reclaims : Bool) : Settlement :=
  let stream := s.ownStream src
  let wanted := (s.sp.get src).wanted
  match s.demanded src, runOf s.st stream with
  | true, some e =>
    if e.kind == wanted then { state := .published, offer := none } else { state := .reclaiming, offer := some (.release stream) }
  | true, none =>
    match firstFit s.st stream wanted with
    | some start =>
      { state := if reclaims then .reclaiming else .claiming, offer := some (.claim stream wanted start) }
    | none => { state := .noSlot, offer := none }
  | false, some _ => { state := .undemanded, offer := some (.release stream) }
  | false, none => { state := .undemanded, offer := none }

/-- The outstanding message that an offer sets. -/
def outstandingOf : Option Msg → Outstanding
  | some (.claim _ kind start) => .claim kind start
  | some (.release _) => .release
  | _ => .none

/-- The message of an outstanding mark. -/
def messageOf (stream : Stream) : Outstanding → Option Msg
  | .none => none
  | .claim kind start => some (.claim stream kind start)
  | .release => some (.release stream)

/-- An offer where there is one. -/
def LinkController.offerMaybe (lc : LinkController) : Option Msg → LinkController
  | some m => lc.offer m
  | none => lc

/-- A record without an outstanding message settles (R59, R63). -/
def State.settle (s : State) (src : Source) (reclaims : Bool := false) : State :=
  let r := s.sp.get src
  if s.publishes src && r.outstanding == .none then
    let p := s.settlement src reclaims
    { s with
      sp := s.sp.set src { r with state := p.state, outstanding := outstandingOf p.offer, heldBack := p.offer.any s.lc.handsBack }
      lc := s.lc.offerMaybe p.offer
      cr := s.cr.put (.streamNoSlot src) (p.state == .noSlot) }
  else s

/-- A record whose held-back CLAIM is dropped has nothing outstanding; a held-back RELEASE is kept (R62). -/
def PubRecord.dropClaim (r : PubRecord) : PubRecord :=
  match r.heldBack, r.outstanding with
  | true, .claim _ _ => { r with outstanding := .none, heldBack := false }
  | _, _ => r

/-- A record follows a change of demand: settled where nothing is outstanding, otherwise its state alone follows (R59, R62). -/
def State.followDemand (s : State) (src : Source) : State :=
  let r := s.sp.get src
  let wants := s.demanded src
  if !s.publishes src || wants == (r.state != .undemanded) then s
  else if r.outstanding == .none then s.settle src
  else if wants then s.setPub src { r with state := .claiming }
  else ((s.setPub src { r.dropClaim with state := .undemanded }).setCondition (.streamNoSlot src) false).settle src

/-- A record follows a change of the wanted kind (R62, R64). -/
def State.followKind (s : State) (src : Source) (kind : Kind) : State :=
  let r := s.sp.get src
  if r.wanted == kind then s
  else
    let s1 := s.setPub src { r.dropClaim with wanted := kind }
    if r.state == .undemanded then s1 else s1.settle src

/-- An operation made for each of the three records, in the order A, B, T. -/
def State.eachSource (s : State) (f : State → Source → State) : State := f (f (f s .a) .b) .t

/-- Every record follows the demand that the zone records now make. -/
def State.followDemands (s : State) : State := s.eachSource State.followDemand

/-- A record at the freeing of runs: NO_SLOT retries, and a record that lost its run with nothing outstanding settles (R53, R61, R63). -/
def State.afterFreeing (freed : List Stream) (s : State) (src : Source) : State :=
  let r := s.sp.get src
  if freed != [] && (r.state == .noSlot || freed.contains (s.ownStream src)) then s.settle src else s

/-- The freeing of runs is handed to the publisher (R53). -/
def State.handFreed (s : State) (freed : List Stream) : State := s.eachSource (State.afterFreeing freed)

/-- The own CLAIM or RELEASE of a record is taken: nothing is outstanding, and the record settles (R60, R61). -/
def State.ownTaken (s : State) (src : Source) : State :=
  let r := s.sp.get src
  (s.setPub src { r with outstanding := .none, heldBack := false }).settle src
    (r.outstanding == .release && r.state == .reclaiming)

/-- The source of the CLAIM or RELEASE that this station has in flight at a position of its own. -/
def State.ownClass0 (s : State) (sender : Station) : Option Source :=
  if s.lc.isOwnPosition s.own { cls := 0, sender := sender } then
    match s.lc.inFlight with
    | some (.claim stream _ _) => some stream.source
    | some (.release stream) => some stream.source
    | _ => none
  else none

/-- The take of an own class-0 message at the publisher. -/
def State.ownTakenAt (s : State) (src : Option Source) : State :=
  match src with
  | some x => s.ownTaken x
  | none => s

/-- A held-back message is offered again at a round begin (R62). -/
def State.offerAgain (s : State) (src : Source) : State :=
  let r := s.sp.get src
  if r.heldBack then
    match messageOf (s.ownStream src) r.outstanding with
    | some m => { s with sp := s.sp.set src { r with heldBack := s.lc.handsBack m }, lc := s.lc.offer m }
    | none => s
  else s

/-! ## The slots sent (R65) -/

/-- 144 bytes of silence. -/
def silentData : List Byte := List.replicate 144 0

/-- The 48 samples of one channel as slot data. -/
def channelData (samples : List Sample) : List Byte := (samples.flatMap bytes24 ++ silentData).take 144

/-- One quarter of a packed block, with 0 after the last byte of the block. -/
def quarter (block : List Byte) (part : Nat) : List Byte := (block.drop (144 * part) ++ silentData).take 144

/-- A capture fits a run of a kind. -/
def CaptureContent.fits : CaptureContent → Kind → Bool
  | .pcm _, .pcm2 => true
  | .packed _, .packed => true
  | .noBlock, .packed => true
  | _, _ => false

/-- The 144 data bytes of a slot whose capture had no block. Section 13.2, R65 and R100 give its flag and state no data, so that each byte is a free
value: the model's choice (the log's row 64). -/
def unstatedBlockData (draw : Nat) : List Byte := (List.range 144).map (Config.unstatedBlockByte draw)

/-- The data of a part of a run; that of a capture without a block is drawn. -/
def CaptureContent.data (c : CaptureContent) (part draw : Nat) : List Byte :=
  match c with
  | .pcm pairs => channelData (pairs.map fun p => if part = 0 then p.1 else p.2)
  | .packed block => quarter block part
  | .silence => silentData
  | .noBlock => unstatedBlockData draw

/-- The header and data that this station sends in a slot of one of its own streams; none where it sends nothing (R40, R65, R66). The capture round of
an unknown round number and the data of an unmuted slot without a block are free values. A muted slot carries the no-block flag clear, also where the capture had no block (13.2): the model's choice
(the log's row 61). -/
def State.sends (s : State) (slot : SlotNo) : Option (SlotHeader × List Byte) :=
  match s.st[slot] with
  | some e =>
    if e.stream.station == s.own && s.hasSource e.stream.source && s.pt.mode != .joining then
      let r := s.sp.get e.stream.source
      let muted := !(r.state == .published && r.capture.usable && r.capture.content.fits e.kind)
      let part := slot.val - e.start.val
      some ({ stream := e.stream, kind := e.kind, part := part, muted := muted, noBlock := !muted && r.capture.content == .noBlock,
              capture := (s.rt.roundNumber.map captureByte).getD (Config.unstatedCaptureRound s.freeDraws) },
            if muted then silentData else r.capture.content.data part s.freeDraws)
    else none
  | none => none

/-- The bytes of the slot on the link. -/
def State.sentBytes (s : State) (slot : SlotNo) : Option SentSlot :=
  (s.sends slot).map fun x => { slot := slot, bytes := encodeSlot x.1 x.2 }

end Sys2Proof.Machine
end

