-- ==== Sys2Proof/Machine/Receiver.lean ====
section
/-! DEFINITION. The stream receiver (section 4.4): switching, writing the ring, presentation and the watchdog. -/

namespace Sys2Proof.Machine

/-- Some output is in RAMP_UP, PLAYING or RAMP_DOWN (R72). -/
def State.sounding (s : State) : Bool := s.om.outputs.toList.any (·.state.sounding)

/-- Every ring entry MISSING with no round number. -/
def emptyRing : Vector RingEntry 8 := Vector.replicate 8 RingEntry.missing

/-- The receiver after a switch to a program (R67). A switch between two slots of a round drops what the round has brought, so that the round's
entry is MISSING also where slots of the new stream have passed: the model's choice (the log's row 51). -/
def Receiver.switched (program : Option Stream) : Receiver :=
  { subscription := program, target := none, ring := emptyRing, watchdog := 0, programKind := none,
    state := if program.isSome then .filling else .idle, lead := none, lastPairs := [], gathered := [] }

/-- A switch: PROGRAM_LOST is cleared, the program kind is none, and the matrix rebuilds (R67, R71, R106, R120). -/
def State.switchTo (s : State) (program : Option Stream) : State :=
  (({ s with sr := Receiver.switched program }.setCondition .programLost false).checkDecoder).rebuild

/-- The switch to a held target at the event at which no output remains in the set (R72). -/
def State.switchIfDown (s : State) : State :=
  match s.sr.target with
  | some program => if s.sounding then s else s.switchTo program
  | none => s

/-- A change of the own zone's program (R72): a switch at once, a held target, or the drop of a target that is the subscription. -/
def State.followProgram (s : State) : State :=
  let program := s.ownRecord.program
  if program == s.sr.subscription then { s with sr := { s.sr with target := none } }
  else if s.sounding then { s with sr := { s.sr with target := some program } }
  else s.switchTo program

/-- A change of D (R73). -/
def State.dropForD (s : State) : State :=
  if s.sr.state == .idle then s
  else
    { s with sr := { s.sr with ring := emptyRing, watchdog := 0, state := .filling, lead := none } }.setCondition .programLost false

/-! ## Writing the ring (R68) -/

/-- What a slot of the subscribed stream's run brought, read against the table as it stood at the slot. -/
def State.gather (s : State) (slot : SlotNo) (header : Option (SlotHeader × List Byte)) : List GatheredSlot :=
  match s.sr.subscription, s.st[slot] with
  | some stream, some e =>
    if e.stream == stream then
      let part := slot.val - e.start.val
      let good := header.any fun h => h.1.stream == stream && h.1.kind == e.kind && h.1.part == part
      s.sr.gathered ++
        [{ kind := e.kind, start := e.start, part := part, good := good, muted := header.any (·.1.muted),
           noBlock := header.any (·.1.noBlock), data := (header.map (·.2)).getD [] }]
    else s.sr.gathered
  | _, _ => s.sr.gathered

/-- The ring entry that the gathered slots of a round give (R68). Of a run whose slots differ in the no-block flag the flag is set when any slot
carries it: the model's choice (the log's row 50). -/
def entryOf (round : RoundNo) (gathered : List GatheredSlot) : RingEntry :=
  match gathered with
  | [] => { RingEntry.missing with round := some round }
  | g :: _ =>
    if gathered.length == widthOf g.kind && gathered.all fun x => x.good && x.kind == g.kind && x.start == g.start then
      if gathered.any (·.muted) then
        { round := some round, status := .muted, kind := some g.kind, noBlock := false, data := [] }
      else
        { round := some round, status := .valid, kind := some g.kind, noBlock := gathered.any (·.noBlock),
          data := gathered.map (·.data) }
    else { RingEntry.missing with round := some round }

/-- The ring index of a round. -/
def ringIndex (round : RoundNo) : Fin 8 := Fin.ofNat 8 round.toNat

/-- An entry that brings a round of the stream. -/
def RingEntry.received (e : RingEntry) : Bool := e.status != .missing

/-- The entry presented for a capture round: an entry with another round number is read as MISSING (R69). -/
def Receiver.entryFor (sr : Receiver) (round : RoundNo) : RingEntry :=
  let e := sr.ring[ringIndex round]
  if e.round == some round then e else RingEntry.missing

/-- A round lies before another by less than half of the cycle of round numbers: the manual gives no measure between numbers that wrap, as after a
jump, and this one is the model's choice (the log's row 58). -/
def roundBefore (a b : RoundNo) : Bool := a != b && (b - a).toNat < 32768

/-- The lead of a receiver after LOST, once an entry is written: an older entry received takes its place, and it stops being the lead where the
ring no longer holds its entry, as after a jump of the round number (R69, R71). -/
def Receiver.leadAfter (sr : Receiver) (written : RoundNo) : Option RoundNo :=
  sr.lead.bind fun r =>
    if (sr.entryFor written).received && roundBefore written r then some written
    else if (sr.entryFor r).received then some r
    else none

/-- The end of the audio slots of a round: the entry of the capture round is written; in LOST the first VALID or MUTED entry brings FILLING
with that entry as lead (R68, R71). -/
def State.writeRing (s : State) : State :=
  match s.sr.subscription, s.rt.roundNumber with
  | some _, some m =>
    let entry := entryOf (m - 1) s.sr.gathered
    let found := s.sr.state == .lost && entry.received
    let written := { s.sr with ring := s.sr.ring.set (ringIndex (m - 1)) entry, gathered := [] }
    { s with
      sr := { written with
        state := if found then .filling else s.sr.state, lead := if found then some (m - 1) else written.leadAfter (m - 1) }
      cr := if found then s.cr.put .programLost false else s.cr }
  | _, _ => { s with sr := { s.sr with gathered := [] } }

/-! ## Presentation (R69 to R71) -/

/-- The frame of silence of a round that presents none. -/
def State.silentFrame (s : State) : State := { s with mm := { s.mm with frame := Frame.silence } }

/-- Three bytes as a sample. -/
def sampleOf (bytes : List Byte) : Sample := BitVec.ofNat 24 (natOfBytes (bytes.take 3))

/-- The 48 samples of one slot. -/
def samplesOf (data : List Byte) : List Sample := (List.range 48).map fun i => sampleOf (data.drop (3 * i))

/-- The sample pairs of a PCM2 entry. -/
def pairsOf (e : RingEntry) : List (Sample × Sample) := (samplesOf (e.data.getD 0 [])).zip (samplesOf (e.data.getD 1 []))

/-- 48 pairs of silence. -/
def silentPairs : List (Sample × Sample) := List.replicate 48 (0, 0)

/-- A PCM2 round with its samples (R116). -/
def State.playPairs (s : State) (pairs : List (Sample × Sample)) : State :=
  { s with
    sr := { s.sr with lastPairs := pairs }
    mm := { s.mm with frame := pcmFrame s.ownRecord.listening pairs } }

/-- The block of a PACKED entry; bad with the no-block flag (R104). -/
def blockOf (e : RingEntry) : Option PackedBlock := if e.noBlock then none else readBlock e.data.flatten

/-- A change of the program kind at a presentation is handed to the decoder and the matrix (R70, R106, R120). -/
def State.takeKind (s : State) (kind : Option Kind) : State :=
  if s.sr.programKind == kind then s
  else ({ s with sr := { s.sr with programKind := kind } }.checkDecoder).rebuild

/-- A presented VALID or MUTED entry in RUNNING (R70). -/
def State.presentReceived (s : State) (e : RingEntry) : State :=
  let s1 := { s with sr := { s.sr with watchdog := 0 } }.takeKind e.kind
  match e.kind, e.status with
  | some .packed, .valid => s1.decode (.block (blockOf e))
  | some .packed, _ => s1.decode .muted
  | some .pcm2, .valid => s1.playPairs (pairsOf e)
  | some .pcm2, _ => s1.playPairs silentPairs
  | none, _ => s1.silentFrame

/-- The watchdog fires: LOST, PROGRAM_LOST and, in HARD mode, a cut (R71). LOST presents silence. -/
def State.fireWatchdog (s : State) : State :=
  let s1 := ({ s with sr := { s.sr with state := .lost, watchdog := 0 } }.setCondition .programLost true).silentFrame
  if s.cl.values.cutMode == .hard then s1.cut else s1

/-- What a presented MISSING round plays: the first of a run repeats the previous round of a PCM2 program, a PACKED program hands a bad
block (R70). -/
def State.presentMissing (s : State) : State :=
  match s.sr.programKind with
  | some .pcm2 => s.playPairs (if s.sr.watchdog == 0 then s.sr.lastPairs else silentPairs)
  | some .packed => s.decode (.block none)
  | none => s.silentFrame

/-- A MISSING round counts toward the watchdog limit (R70, R71). -/
def State.countMissing (s : State) : State :=
  if s.cl.values.watchdogLimit ≤ s.sr.watchdog + 1 then s.fireWatchdog
  else { s with sr := { s.sr with watchdog := s.sr.watchdog + 1 } }

/-- An entry presented in RUNNING. -/
def State.presentRunning (s : State) (e : RingEntry) : State :=
  if e.received then s.presentReceived e else s.presentMissing.countMissing

/-- The entry received for the round presented leads: no lead of LOST waits for a later presentation (R69, R71). A lead whose presentation has passed,
as at a jump of the round number, bars nothing. -/
def Receiver.leads (sr : Receiver) (round : RoundNo) : Bool := !sr.lead.any (roundBefore round)

/-- The lead of LOST once its presentation round has come or passed. -/
def Receiver.dropLead (sr : Receiver) (round : RoundNo) : Receiver :=
  { sr with lead := sr.lead.filter (roundBefore round) }

/-- The presentation in FILLING: the lead entry brings RUNNING while the clock is LOCKED or in HOLDOVER (R69). -/
def State.presentFilling (s : State) (round : RoundNo) (e : RingEntry) : State :=
  let s1 := { s with sr := s.sr.dropLead round }.silentFrame
  if e.received && s.sr.leads round && (s.rt.discipline == .locked || s.rt.discipline == .holdover) then
    { s1 with sr := { s1.sr with state := .running, watchdog := 0, lead := none } }.presentRunning e
  else s1

/-- The presentation of a round begin (R69). -/
def State.present (s : State) : State :=
  match s.rt.roundNumber with
  | none => s.silentFrame
  | some m =>
    let round := m - BitVec.ofNat 16 s.rt.adoptedD
    let e := s.sr.entryFor round
    match s.sr.state with
    | .idle => s.silentFrame
    | .lost => s.silentFrame
    | .filling => s.presentFilling round e
    | .running => s.presentRunning e

end Sys2Proof.Machine
end

