-- ==== Sys2Proof/Machine/Inputs.lean ====
section
/-! DEFINITION. The digital inputs (chapter 6): rate class, sync watch, alignment buffer, capture, and the hand-offs of a change of state. -/

namespace Sys2Proof.Machine

/-- A rate in thousandths of a hertz lies within 0.5 % of a nominal rate in hertz (R94). -/
def nearRate (mean nominal : Nat) : Bool := 995 * nominal ≤ mean && mean ≤ 1005 * nominal

/-- The class of a mean frame rate (R94). -/
def rateClassOf (mean : Nat) : RateClass :=
  if nearRate mean 32000 then .r32
  else if nearRate mean 44100 then .r441
  else if nearRate mean 48000 then .r48
  else if nearRate mean 96000 then .r96
  else .other

/-- The wanted kind that an input state calls for (R58). -/
def wantedKind : InputState → Kind
  | .packed => .packed
  | .noSignal | .acquiring | .pcm | .unsupported => .pcm2

/-- The converter works in PCM alone: its memory starts from silence at each entry and is dropped at each departure (R98). -/
def InputRecord.historyAfter (r old : InputRecord) : ConverterHistory :=
  if r.state == .pcm && old.state == .pcm then r.history else ConverterHistory.silence

/-- A record is written, and a change of state is handed on: the condition, PRESENCE and the publisher (R102, R103). -/
def State.putInput (s : State) (id : InputId) (r : InputRecord) : State :=
  let old := s.ir.get id
  let s1 := { s with
    ir := s.ir.set id { r with changed := old.changed || r.state != old.state, history := r.historyAfter old }
    cr := s.cr.put (.inputUnsupported id) (r.state == InputState.unsupported) }
  (s1.announceIf (announcedKind r.state != announcedKind old.state)).followKind (sourceOf id) (wantedKind r.state)

/-- The end of ACQUIRING by the held class and the sync run (R95). -/
def InputRecord.acquired (r : InputRecord) : InputRecord :=
  { r with
    steady := 8
    state :=
      match r.rateClass with
      | none => .unsupported
      | some .other => .unsupported
      | some .r48 => if r.syncRun == 2 then .packed else .pcm
      | some _ => if r.syncRun == 2 then .unsupported else .pcm }

/-- The step of the rate class at a round begin with a measurement (R95). -/
def InputRecord.measure (r : InputRecord) (measured : RateClass) : InputRecord :=
  match r.state with
  | .noSignal => r
  | .acquiring =>
    if r.rateClass == some measured then
      if 7 ≤ r.steady then r.acquired else { r with steady := r.steady + 1 }
    else { r with rateClass := some measured, steady := 1 }
  | .pcm | .packed | .unsupported =>
    if r.rateClass == some measured then r
    else { r with state := .acquiring, rateClass := some measured, steady := 1, blocks := [] }

/-- A round begin without a measurement: in ACQUIRING the count is set to 0 (R94). -/
def InputRecord.unmeasured (r : InputRecord) : InputRecord := if r.state == .acquiring then { r with steady := 0 } else r

/-- Sync lost: the watch is cleared, and PACKED, or UNSUPPORTED with an accepted class, falls to PCM (R96, R97). -/
def InputRecord.loseSync (r : InputRecord) : InputRecord :=
  { r with
    syncRun := 0, lastCounter := none, withoutSync := 2, blocks := [], inProgress := false
    state :=
      match r.state with
      | .packed => .pcm
      | .unsupported => if r.rateClass == some .other then .unsupported else .pcm
      | x => x }

/-- The sync watch at a round begin (R96). -/
def InputRecord.watchRound (r : InputRecord) : InputRecord :=
  if r.state == .noSignal || r.patternSeen || r.withoutSync == 2 then r
  else if r.withoutSync == 1 then r.loseSync
  else { r with withoutSync := r.withoutSync + 1 }

/-- A sync pattern with its counter (R96), and the change of PCM at confirmed sync (R97). The record is PACKED from the pattern on, before the block that
the pattern begins completes, although R101 calls that block held already: the model's choice (the log's row 59). -/
def InputRecord.seePattern (r : InputRecord) (counter : Byte) : InputRecord :=
  let run := if r.lastCounter.any fun c => counter == c + 1 then min (r.syncRun + 1) 2 else 1
  let confirmed := run == 2 && r.syncRun != 2
  { r with
    syncRun := run, lastCounter := some counter, withoutSync := 0, patternSeen := true, inProgress := true
    state := if confirmed && r.state == .pcm then (if r.rateClass == some .r48 then .packed else .unsupported) else r.state }

/-- A completed block enters as the newest; the buffer holds two (R101). Each block needs a sync pattern of its own: the framing does not run on
past a block whose pattern does not come, which is the model's choice (the log's row 53). -/
def InputRecord.complete (r : InputRecord) (block : List Byte) : InputRecord :=
  { r with blocks := (r.blocks ++ [block]).drop (r.blocks.length - 1), inProgress := false }

/-- How the round ends at the record: as it stands, or as it stood before a command made the step of the coming round begin (the log's row 1). -/
def InputRecord.atEnd (r : InputRecord) : InputEnd := r.ended.getD { state := r.state, blocks := r.blocks }

/-- A step of the coming round begin, made by a command of its own: the round itself ends as the record stood before it. -/
def InputRecord.ahead (r : InputRecord) (step : InputRecord → InputRecord) : InputRecord := { step r with ended := some r.atEnd }

/-- The last 48 pairs produced, a shortfall filled with the last pair (R99). -/
def fortyEight (pairs : List (Sample × Sample)) : List (Sample × Sample) :=
  pairs.drop (pairs.length - 48) ++ List.replicate (48 - pairs.length) (pairs.getLastD (0, 0))

/-- What the rate converter works by in a round: the samples that passed locally, and the trim (R98). -/
structure LocalRound where
  samples : Nat
  trim : Int
deriving DecidableEq, Repr

/-- The sample pairs that the converter produces in a round, one for each local sample; the first channel of a frame is the left (R98). -/
def InputRecord.converted (r : InputRecord) (heard : InputRound) (l : LocalRound) : List (Sample × Sample) :=
  let sample (history : Nat) (frames : List Sample) := Config.convertedSample history r.rateClass l.trim heard.meanRate frames
  (List.range l.samples).map fun i =>
    (sample r.history.left (heard.frames.map (·.1)) i, sample r.history.right (heard.frames.map (·.2)) i)

/-- The converter's memory after a round that ended in PCM (R98). -/
def InputRecord.convert (r : InputRecord) (heard : InputRound) (l : LocalRound) : InputRecord :=
  let memory (history : Nat) (frames : List Sample) := Config.converterMemory history r.rateClass l.trim heard.meanRate frames
  if r.atEnd.state == .pcm then
    { r with history :=
        { left := memory r.history.left (heard.frames.map (·.1)), right := memory r.history.right (heard.frames.map (·.2)) } }
  else r

/-- The capture of the round just ended, from the state in which it ended (R99, R101). -/
def captureOf (r : InputRecord) (heard : InputRound) (l : LocalRound) : CaptureContent :=
  match r.atEnd.state with
  | .pcm => .pcm (fortyEight (r.converted heard l))
  | .packed =>
    match r.atEnd.blocks.getLast? with
    | some b => .packed b
    | none => .noBlock
  | .noSignal | .acquiring | .unsupported => .silence

/-- A round begin at one input record, before its flags of the round are cleared: the measurement, and after it the sync watch. Where both move
the state the change handed on is the one they make together; the order is the model's choice (the log's row 43). -/
def InputRecord.roundBegin (r : InputRecord) (heard : InputRound) (l : LocalRound) : InputRecord :=
  let converted := r.convert heard l
  let taken := if r.ended.isNone && r.state == .packed then { converted with blocks := [] } else converted
  let measured :=
    match if r.clockGap then none else heard.meanRate with
    | some mean => taken.measure (rateClassOf mean)
    | none => taken.unmeasured
  measured.watchRound

/-- The flags of a round are cleared at its end. -/
def InputRecord.newRound (r : InputRecord) : InputRecord := 
  { r with patternSeen := false, changed := false, clockGap := false, ended := none }

/-- A round begin at one input: the record's step with its hand-offs, and the capture handed to the publisher (R99). -/
def State.inputRound (s : State) (id : InputId) (heard : InputRound) (l : LocalRound) : State :=
  let old := s.ir.get id
  let s1 := if s.inputsPowered then s.putInput id (old.roundBegin heard l) else s
  { s1 with
    sp := s1.sp.set (sourceOf id)
      { s1.sp.get (sourceOf id) with
        capture :=
          { content := captureOf old heard l, usable := s.inputsPowered && (old.atEnd.state == .pcm || old.atEnd.state == .packed) } } }

/-- A change of an input's state in the round or at its end leaves the capture unusable, one at the end of the join window included (R100); the
flags of the round are cleared. -/
def State.inputClose (s : State) (id : InputId) : State :=
  let r := s.ir.get id
  let p := s.sp.get (sourceOf id)
  { s with
    ir := s.ir.set id r.newRound
    sp := s.sp.set (sourceOf id) { p with capture := { p.capture with usable := p.capture.usable && !r.changed } } }

/-- An input is powered: it enters ACQUIRING if its clock is present (R93). -/
def State.powerInput (s : State) (id : InputId) : State :=
  if s.pins.clock id then s.putInput id { InputRecord.reset with state := .acquiring } else s

/-- An input is powered down: NO_SIGNAL with the reset values (R93). -/
def State.unpowerInput (s : State) (id : InputId) : State := s.putInput id InputRecord.reset

/-- An event of an input that is powered and has a clock acts on its record; otherwise nothing happens (R93, R96). -/
def State.atInput (s : State) (id : InputId) (f : InputRecord → InputRecord) : State :=
  if s.inputsPowered && (s.ir.get id).state != .noSignal then s.putInput id (f (s.ir.get id)) else s

end Sys2Proof.Machine
end

