-- ==== Sys2Proof/Machine/Presets.lean ====
section
/-! DEFINITION. The preset store (chapter 10): sectors and sequences, the index, the engine with its five steps, the read list, recovery. -/

namespace Sys2Proof.Machine

/-! ## Sectors (R163, R164) -/

/-- The first of two sequences follows the second by fewer than 2147483648 steps (R163). -/
def newerSequence (a b : BitVec 32) : Bool := a != b && (a - b).toNat < 2147483648

/-- The steps from one generation to another, with 4294967295 followed by 1 (R164). -/
def generationSteps (older newer : BitVec 32) : Nat :=
  if older.toNat ≤ newer.toNat then newer.toNat - older.toNat else 4294967295 - older.toNat + newer.toNat

/-- The generation that follows another (R171). -/
def nextGeneration (g : BitVec 32) : BitVec 32 := if g == 4294967295 then 1 else g + 1

/-- The active sector, none while neither header is valid (R164). -/
def activeSector (sectors : Vector Sector 2) : Option (Fin 2) :=
  match sectors[0].valid, sectors[1].valid with
  | true, true =>
    let steps := generationSteps sectors[0].generation sectors[1].generation
    some (if 0 < steps ∧ steps < 2147483648 then 1 else 0)
  | true, false => some 0
  | false, true => some 1
  | false, false => none

/-- The lowest slot above every slot that is not ERASED; none where the sector is full (R163). -/
def Sector.appendSlot (s : Sector) : Option (Fin 32) :=
  (List.finRange 32).find? fun i => (List.finRange 32).all fun j => j < i || s.slots[j].slotState == .erased

/-- The record of a slot. -/
def slotAt (sectors : Vector Sector 2) (r : SlotRef) : RecordSlot := (sectors[r.sector]).slots[r.slot]

/-- A record written to a slot. -/
def writeSlot (sectors : Vector Sector 2) (r : SlotRef) (rec : RecordSlot) : Vector Sector 2 :=
  sectors.set r.sector { sectors[r.sector] with slots := (sectors[r.sector]).slots.set r.slot rec }

/-- A slot marked WRITING at the start of a program step (R163). -/
def markWriting (sectors : Vector Sector 2) (r : SlotRef) : Vector Sector 2 :=
  writeSlot sectors r { slotAt sectors r with state := stateByteWriting }

/-- A header made invalid at the start of an erase (R164, R171). What its generation then holds is open; the model writes erased bytes, here and not
only at the end of the erase: its choice (the log's row 57). -/
def invalidateHeader (sectors : Vector Sector 2) (i : Fin 2) : Vector Sector 2 :=
  sectors.set i { sectors[i] with generation := 0xFFFFFFFF, mark := 0xFF }

/-! ## The index (R165) -/

/-- The newer of two slots by sequence; none counts as older than any. Where R163 names no newer one, or the sequences span more than half of the
cycle, the slot met first stands, which is the model's choice (the log's row 56). -/
def newerSlot (s : Sector) : Option (Fin 32) → Fin 32 → Option (Fin 32)
  | none, i => some i
  | some best, i => if newerSequence s.slots[i].sequence s.slots[best].sequence then some i else some best

/-- The LIVE record of a number with the highest sequence. -/
def newestLive (s : Sector) (number : Fin 30) : Option (Fin 32) :=
  (List.finRange 32).foldl
    (fun best i => if s.slots[i].slotState == .live && s.slots[i].readNumber == some number then newerSlot s best i else best) none

/-- The index entry that a sector gives a number. -/
def indexEntry (sectors : Vector Sector 2) (active : Fin 2) (number : Fin 30) : Option SlotRef :=
  match newestLive sectors[active] number with
  | some i => if (sectors[active]).slots[i].isCleared then none else some { sector := active, slot := i }
  | none => none

/-- The index that recovery builds (R165, R175, R176). -/
def buildIndex (sectors : Vector Sector 2) : Vector (Option SlotRef) 30 :=
  match activeSector sectors with
  | some a => Vector.ofFn fun n => indexEntry sectors a n
  | none => Vector.replicate 30 none

/-- The sequences of the LIVE and SUPERSEDED records of a valid sector. -/
def sequencesOf (s : Sector) : List (BitVec 32) :=
  if s.valid then (s.slots.toList.filter fun r => r.slotState == .live || r.slotState == .superseded).map (·.sequence) else []

/-- The newer of two sequences; none counts as older than any. Where R163 names no newer one the sequence met first stands, sector 0 before sector
1: the model's choice (the log's row 56). -/
def newestOf : Option (BitVec 32) → BitVec 32 → Option (BitVec 32)
  | none, b => some b
  | some a, b => if newerSequence b a then some b else some a

/-- The next sequence that recovery sets (R175). -/
def recoveredSequence (sectors : Vector Sector 2) : BitVec 32 :=
  match (sequencesOf sectors[0] ++ sequencesOf sectors[1]).foldl newestOf none with
  | some q => q + 1
  | none => 0

/-! ## Records -/

/-- A name in its eight bytes, unused bytes FFh (13.3). -/
def nameBytes (name : List Byte) : Vector Byte 8 := Vector.ofFn fun i => name.getD i.val 0xFF

def StoreEntry.number : StoreEntry → Fin 30
  | .store n _ _ _ _ => n
  | .clear n _ => n

def StoreEntry.requester : StoreEntry → Requester
  | .store _ _ _ _ r => r
  | .clear _ r => r

def StoreEntry.kind : StoreEntry → RequestKind
  | .store _ _ _ _ _ => .presetStore
  | .clear _ _ => .presetClear

def bandByte (b : Band) : Byte := BitVec.ofNat 8 (Band.code b)

/-- The LIVE record that an entry is programmed as (R169); a CLEAR carries the band and frequency of the record it clears. -/
def StoreEntry.record (e : StoreEntry) (sequence : BitVec 32) (cleared : Option RecordSlot) : RecordSlot :=
  match e with
  | .store n band freq name _ =>
    { state := stateByteLive, number := BitVec.ofNat 8 (n.val + 1), sequence := sequence, band := bandByte band,
      freq := BitVec.ofNat 24 freq, cleared := 0xFF, nameLength := BitVec.ofNat 8 name.length, name := nameBytes name }
  | .clear n _ =>
    let old := cleared.getD RecordSlot.erased
    { state := stateByteLive, number := BitVec.ofNat 8 (n.val + 1), sequence := sequence, band := bandByte old.readBand,
      freq := old.freq, cleared := 0x00, nameLength := 0, name := nameBytes [] }

/-! ## The engine (R168 to R171, R174) -/

def State.setStore (s : State) (ps : PresetStore) : State := { s with ps := ps }

/-- The time of a step in tenths of a millisecond (section 10.4). -/
def StoreStep.tenths : StoreStep → Nat
  | .programming => 30
  | .superseding => 10
  | .erasing => 600
  | .copying => 30
  | .header => 10

/-- A step begins. -/
def PresetStore.enterStep (ps : PresetStore) (step : StoreStep) : PresetStore :=
  { ps with engine := .running step, remaining := step.tenths }

/-- The engine is IDLE with no step. -/
def PresetStore.toIdle (ps : PresetStore) : PresetStore := { ps with engine := .idle, remaining := 0 }

/-- The slot that the next copy goes to: the append slot of the erased spare. -/
def Compaction.copyTarget (c : Compaction) : SlotRef := { sector := c.spare, slot := Fin.ofNat 32 c.copied }

/-- A compaction begins the step it has reached (R171). -/
def PresetStore.continueCompaction (ps : PresetStore) (c : Compaction) : PresetStore :=
  let sectors :=
    match c.next with
    | .erasing => invalidateHeader ps.sectors c.spare
    | .copying => markWriting ps.sectors c.copyTarget
    | .header | .programming | .superseding => ps.sectors
  { ps with sectors := sectors, compaction := some c }.enterStep c.next

/-- The start of PROGRAMMING for an entry at a slot (R169). -/
def PresetStore.program (ps : PresetStore) (entry : StoreEntry) (slot : SlotRef) : PresetStore :=
  let previous := ps.index[entry.number]
  let record := entry.record ps.nextSequence (previous.map (slotAt ps.sectors))
  { ps with
    sectors := markWriting ps.sectors slot
    current := some { entry := entry, slot := slot, record := record, previous := previous }
    nextSequence := ps.nextSequence + 1 }.enterStep .programming

/-- The spare beside an active sector. -/
def spareOf (active : Option (Fin 2)) : Fin 2 :=
  match active with
  | some 0 => 1
  | _ => 0

/-- A compaction that starts with the erase of the spare. -/
def newCompaction (active : Option (Fin 2)) : Compaction := { spare := spareOf active, copyList := [], copied := 0, next := .erasing }

/-- The append slot of the active sector. -/
def PresetStore.appendRef (ps : PresetStore) : Option SlotRef :=
  match activeSector ps.sectors with
  | some a => ((ps.sectors[a]).appendSlot).map fun i => { sector := a, slot := i }
  | none => none

/-- The engine takes entries from the head of the queue (R168): a CLEAR that needs no record is answered and the next is taken; a full
sector starts a compaction; otherwise PROGRAMMING begins. -/
def State.takeEntries (s : State) : List StoreEntry → State
  | [] => s.setStore { s.ps with queue := [] }
  | e :: rest =>
    match e, s.ps.index[e.number] with
    | .clear _ requester, none => (s.offerReply requester .presetClear .done).takeEntries rest
    | _, _ =>
      match s.ps.appendRef with
      | some slot => s.setStore ({ s.ps with queue := rest }.program e slot)
      | none =>
        s.setStore ({ s.ps with queue := e :: rest }.continueCompaction (newCompaction (activeSector s.ps.sectors)))

/-- The conditions under which the engine begins work (R168). -/
def State.engineMayBegin (s : State) : Bool :=
  !s.inReset && s.ps.recoveryEnded && s.ps.engine == .idle && s.ps.reads == [] && s.sm == .normal

/-- The engine begins work, if it may (R168). -/
def State.engineBegin (s : State) : State :=
  if s.engineMayBegin then
    match s.ps.compaction with
    | some c => s.setStore (s.ps.continueCompaction c)
    | none => s.takeEntries s.ps.queue
  else s

/-- The commit of PROGRAMMING (R169): the slot LIVE, the index changed, DONE offered, and SUPERSEDING where a previous record was noted. -/
def State.commit (s : State) (p : Programming) : State :=
  let cleared := p.record.isCleared
  let committed := { s.ps with
    sectors := writeSlot s.ps.sectors p.slot p.record
    index := s.ps.index.set p.entry.number (if cleared then none else some p.slot) }
  let s1 := s.offerReply p.entry.requester p.entry.kind .done
  match p.previous with
  | some _ => s1.setStore (committed.enterStep .superseding)
  | none => (s1.setStore { committed with current := none }.toIdle).engineBegin

/-- The end of SUPERSEDING (R170). -/
def State.supersede (s : State) (r : SlotRef) : State :=
  (s.setStore { s.ps with
    sectors := writeSlot s.ps.sectors r { slotAt s.ps.sectors r with state := stateByteSuperseded }
    current := none }.toIdle).engineBegin

/-- The phase of a compaction after its erase or a copy. -/
def Compaction.after (c : Compaction) (copied : Nat) : Compaction :=
  { c with copied := copied, next := if copied < c.copyList.length then .copying else .header }

/-- The end of ERASING (R171): the spare erased and the copy list taken, in ascending preset number. -/
def State.endErase (s : State) (c : Compaction) : State :=
  let listed := { c with copyList := s.ps.index.toList.filterMap id }
  (s.setStore { s.ps with sectors := s.ps.sectors.set c.spare Sector.erased, compaction := some (listed.after 0) }.toIdle).engineBegin

/-- The end of COPYING of one record (R171). The bytes of the record are copied as they stand, also a band, a name length or a name that 13.4 reads as
another value: R171 says "every field" alone, and this is the model's choice (the log's row 66). -/
def State.endCopy (s : State) (c : Compaction) : State :=
  let source := (c.copyList[c.copied]?).map (slotAt s.ps.sectors)
  let sectors :=
    match source with
    | some r => writeSlot s.ps.sectors c.copyTarget { r with state := stateByteLive }
    | none => s.ps.sectors
  (s.setStore { s.ps with sectors := sectors, compaction := some (c.after (c.copied + 1)) }.toIdle).engineBegin

/-- The copy of a slot of the copy list. -/
def Compaction.copyOf (c : Compaction) (r : SlotRef) : SlotRef := { sector := c.spare, slot := Fin.ofNat 32 (c.copyList.idxOf r) }

/-- The end of HEADER (R171, R176): the spare valid with the next generation, the index switched to the copies. -/
def State.endHeader (s : State) (c : Compaction) : State :=
  let generation := match activeSector s.ps.sectors with
    | some a => nextGeneration (s.ps.sectors[a]).generation
    | none => 1
  (s.setStore { s.ps with
    sectors := s.ps.sectors.set c.spare { s.ps.sectors[c.spare] with generation := generation, mark := headerMark }
    index := s.ps.index.map (Option.map c.copyOf)
    compaction := none }.toIdle).engineBegin

/-! ## Reads (R172, R173) -/

/-- The read list is full. -/
def State.readsFull (s : State) : Bool := 16 ≤ s.ps.reads.length

/-- A read enters the list: in IDLE its service starts at once, a step in progress is suspended with the time it has left, which is a
free value since the commands carry no store time (R173). -/
def State.enterRead (s : State) (r : Read) : State :=
  match s.ps.engine with
  | .idle => s.setStore { s.ps with reads := s.ps.reads ++ [r], readInService := true }
  | .suspended _ => s.setStore { s.ps with reads := s.ps.reads ++ [r] }
  | .running step =>
    (s.setStore { s.ps with
      reads := s.ps.reads ++ [r], engine := .suspended step, readInService := false
      remaining := min (Config.remainingAtSuspend s.freeDraws) s.ps.remaining }).draw

/-- The record that a read returns; none is EMPTY (R172). -/
def PresetStore.readResult (ps : PresetStore) (number : Fin 30) : Option RecordSlot := (ps.index[number]).map (slotAt ps.sectors)

/-- The list after the completion of its first read: the next read is in service, or the suspended step resumes (R173). -/
def PresetStore.afterRead (ps : PresetStore) (rest : List Read) : PresetStore :=
  let resumed := match rest, ps.engine with
    | [], .suspended step => EngineState.running step
    | _, e => e
  { ps with reads := rest, readInService := rest != [], engine := resumed }

/-- The answer to a PRESET READ at its completion (R172, R181). -/
def State.answerRead (s : State) (number : Fin 30) (requester : Requester) : State :=
  match s.ps.readResult number with
  | some r =>
    s.offer (.presetData { requester := requester, preset := number.val + 1, band := r.readBand, freq := r.freq.toNat, name := r.readName })
  | none => s.offerReply requester .presetRead .empty

/-- A RECALL whose operation was aborted: its read completes without effect (R158). -/
def PresetStore.abandonRecall (ps : PresetStore) : PresetStore :=
  { ps with reads := ps.reads.map fun r => if r.origin == .recall then { r with origin := .abandoned } else r }

/-! ## Reset and recovery (R175, R176) -/

/-- The end of recovery: the index, the next sequence, and the first compaction of a memory without a valid header. -/
def PresetStore.recover (ps : PresetStore) : PresetStore :=
  { ps with
    index := buildIndex ps.sectors
    nextSequence := recoveredSequence ps.sectors
    compaction := if (activeSector ps.sectors).isSome then none else some (newCompaction none)
    recoveryEnded := true }

/-- The step that a reset cuts short. -/
def PresetStore.cutStep (ps : PresetStore) : Option StoreStep :=
  match ps.engine with
  | .idle => none
  | .running step => some step
  | .suspended step => some step

/-- A slot of a sector whose erase was cut short: bytes that the manual leaves open (R175). -/
def residueSlot (draw slot : Nat) : RecordSlot :=
  let b := Config.residueByte draw slot
  { state := b 0, number := b 1, sequence := b 2 ++ b 3 ++ b 4 ++ b 5, band := b 6, freq := b 7 ++ b 8 ++ b 9, cleared := b 10,
    nameLength := b 11, name := Vector.ofFn fun i => b (12 + i.val) }

/-- The sectors that a reset leaves: what the last completed steps left in them, and an erase cut short (R175). -/
def PresetStore.sectorsAfterReset (ps : PresetStore) (draw : Nat) : Vector Sector 2 :=
  match ps.cutStep, ps.compaction with
  | some .erasing, some c => ps.sectors.set c.spare { ps.sectors[c.spare] with slots := Vector.ofFn fun i => residueSlot draw i.val }
  | _, _ => ps.sectors

end Sys2Proof.Machine
end

