-- ==== Sys2Proof/Machine/Tuner.lean ====
section
/-! DEFINITION. The tuner back end (chapter 9): band plans, the gate, the tests of a request, operations and their ends, station lists. -/

namespace Sys2Proof.Machine

/-! ## Band plans (section 9.2, R145) -/

def lowestChannel : BandPlan → Band → Nat
  | .a, .fm => 87500
  | .a, .am => 531
  | .b, .fm => 87900
  | .b, .am => 530

def highestChannel : BandPlan → Band → Nat
  | .a, .fm => 108000
  | .a, .am => 1602
  | .b, .fm => 107900
  | .b, .am => 1710

def channelStep : BandPlan → Band → Nat
  | .a, .fm => 100
  | .a, .am => 9
  | .b, .fm => 200
  | .b, .am => 10

/-- A valid channel of a band (R145). -/
def validChannel (p : BandPlan) (b : Band) (f : Nat) : Bool :=
  lowestChannel p b ≤ f && f ≤ highestChannel p b && (f - lowestChannel p b) % channelStep p b == 0

/-- The next channel of a band in a direction (R145). -/
def nextChannel (p : BandPlan) (b : Band) (f : Nat) : Direction → Nat
  | .up => if f == highestChannel p b then lowestChannel p b else f + channelStep p b
  | .down => if f == lowestChannel p b then highestChannel p b else f - channelStep p b

def nominalIf : Band → Nat
  | .fm => 10700
  | .am => 450

def settleTime : Band → Nat
  | .fm => 5
  | .am => 20

def gateTime : Band → Nat
  | .fm => 4
  | .am => 8

def acceptWindow : Band → Nat
  | .fm => 25
  | .am => 2

def ConfigValues.threshold (c : ConfigValues) : Band → Nat
  | .fm => c.fmThreshold
  | .am => c.amThreshold

/-! ## Entries to states -/

def State.setTuner (s : State) (tb : Tuner) : State := { s with tb := tb }

/-- Entry to SETTLING at a band and frequency: the frequency word is written and the settle time counted (R144, R147). The pilot of the last gate
closed stands until the next close also where the band goes to AM: the model's choice (the log's row 60). -/
def Tuner.settle (tb : Tuner) (band : Band) (freq : Nat) : Tuner :=
  { tb with
    state := .settling, band := band, freq := freq, phase := settleTime band, freqWord := some (band, freq), changed := true,
    taken := { tb.taken with phase := false } }

/-- A resume: SETTLING at the held band and frequency (R151). -/
def Tuner.resume (tb : Tuner) : Tuner := tb.settle tb.band tb.freq

/-- Entry to OFF: the front end is powered down, the band, frequency, lists, level and pilot are kept (R144, R151, R154). -/
def Tuner.toOff (tb : Tuner) : Tuner :=
  { tb with state := .off, phase := 0, unheld := 0, freqWord := none, changed := true, gate := Gate.reset, taken := TunerSteps.none }

/-- A gate opens at the counts given, for the gate time of the band (R148). -/
def Tuner.openGate (tb : Tuner) (counter : Counter) : Tuner :=
  { tb with gate := { ifStart := tb.ifCount, counterStart := counter, levelSum := 0, readings := 0, pilot := true, left := gateTime tb.band } }

/-- The end of settling: MEASURING with an open gate (R147). -/
def Tuner.measure (tb : Tuner) (counter : Counter) : Tuner :=
  { tb with state := .measuring, phase := gateTime tb.band, changed := true }.openGate counter

/-- Entry to LISTENING, where a gate opens (R149). -/
def Tuner.listen (tb : Tuner) (counter : Counter) : Tuner :=
  { tb with state := .listening, phase := 0, changed := true }.openGate counter

/-! ## The measurement (R148) -/

/-- What the front end delivers is added to the counts and to the gate in progress; in OFF nothing is counted (R144). -/
def Tuner.accumulate (tb : Tuner) (fe : FrontEnd) : Tuner :=
  match tb.state with
  | .off => tb
  | .settling => { tb with ifCount := tb.ifCount + fe.edges }
  | .measuring | .listening =>
    { tb with
      ifCount := tb.ifCount + fe.edges
      gate := { tb.gate with
        levelSum := tb.gate.levelSum + (fe.levels.map (·.toNat)).sum
        readings := tb.gate.readings + fe.levels.length
        pilot := tb.gate.pilot && fe.pilot } }

/-- The offset of a gate that closes at a counter value: measured IF less nominal IF, in kHz; 12288 units of the counter are 1 ms. A gate in
which no time passed has a free value. -/
def Tuner.gateOffset (tb : Tuner) (counter : Counter) (draw : Nat) : Offset :=
  let time := (counter - tb.gate.counterStart).toNat
  if time = 0 then { num := Config.unstatedOffset draw, den := 1 }
  else { num := ((tb.ifCount - tb.gate.ifStart) * 12288 : Nat) - (nominalIf tb.band * time : Nat), den := time }

/-- The mean level of the readings, rounded down; without a reading a free value. -/
def Tuner.gateLevel (tb : Tuner) (draw : Nat) : Nat :=
  if tb.gate.readings = 0 then (Config.unstatedLevel draw).toNat else tb.gate.levelSum / tb.gate.readings

/-- The close of a gate: level, offset and pilot replace their previous values. -/
def Tuner.closeGate (tb : Tuner) (counter : Counter) (draw : Nat) : Tuner :=
  { tb with level := tb.gateLevel draw, offset := tb.gateOffset counter draw, pilot := tb.band == .fm && tb.gate.pilot }

/-- The accept test (R148). -/
def Tuner.accepted (tb : Tuner) (c : ConfigValues) : Bool :=
  c.threshold tb.band ≤ tb.level && tb.offset.num.natAbs ≤ acceptWindow tb.band * tb.offset.den

/-! ## Station lists (R160) -/

def Tuner.list (tb : Tuner) : Band → StationList
  | .fm => tb.fmList
  | .am => tb.amList

def Tuner.setList (tb : Tuner) (b : Band) (l : StationList) : Tuner :=
  match b with
  | .fm => { tb with fmList := l }
  | .am => { tb with amList := l }

/-- A channel at its place in ascending order, unless it is in the list or the list is full. -/
def StationList.insert (l : StationList) (e : StationEntry) : StationList :=
  if l.entries.any (·.freq == e.freq) || 40 ≤ l.entries.length then l
  else { l with entries := l.entries.filter (·.freq < e.freq) ++ e :: l.entries.filter (e.freq < ·.freq) }

/-- A channel appended by a SCAN, unless the list is full (R157). -/
def StationList.append (l : StationList) (e : StationEntry) : StationList :=
  if 40 ≤ l.entries.length then l else { l with entries := l.entries ++ [e] }

/-! ## Operations -/

/-- The request kind that a reply to an operation names. -/
def OpKind.request : OpKind → RequestKind
  | .tune => .tune
  | .seek => .seek
  | .scan => .scan
  | .recall => .presetRecall

/-- The end of an operation: the REPLY is offered and the record dropped; the unheld count stands at 0 (R159). -/
def State.endOperation (s : State) (op : Operation) (outcome : ReplyOutcome) (value : Option Nat := none) : State :=
  let s1 := s.offerReply op.requester op.kind.request outcome value
  s1.setTuner { s1.tb with op := none, unheld := 0, taken := { s1.tb.taken with unheld := false } }

/-- A SCAN that is aborted leaves the list of its band PARTIAL, in every stage (R157). -/
def Tuner.leaveScan (tb : Tuner) (op : Operation) : Tuner :=
  if op.kind == .scan then tb.setList op.band { tb.list op.band with complete := false } else tb

/-- An operation in flight is aborted (R153, R154, R157, R158). -/
def State.abortOperation (s : State) : State :=
  match s.tb.op with
  | some op =>
    let s1 := (s.setTuner (s.tb.leaveScan op)).endOperation op .aborted
    if op.stage == .awaiting then s1.setStore s1.ps.abandonRecall else s1
  | none => s

/-- An operation moves to the measurement of a channel. -/
def State.stepOperation (s : State) (op : Operation) (stage : Stage) (freq : Nat) : State :=
  s.setTuner { s.tb.settle s.tb.band freq with op := some { op with stage := stage, target := some freq } }

/-- The tuner enters LISTENING and the operation ends. -/
def State.listenAndEnd (s : State) (op : Operation) (counter : Counter) (outcome : ReplyOutcome) (value : Option Nat := none) : State :=
  (s.setTuner (s.tb.listen counter)).endOperation op outcome value

/-- A SEEK at a close in STEPPING (R156). -/
def State.seekClose (s : State) (op : Operation) (counter : Counter) : State :=
  let tb := s.tb
  let next := nextChannel s.cl.values.plan tb.band tb.freq op.direction
  if tb.accepted s.cl.values then
    (s.setTuner (tb.setList tb.band ((tb.list tb.band).insert { freq := tb.freq, level := tb.level }))).listenAndEnd op counter .done
      (some tb.freq)
  else if next == op.start then s.stepOperation op .returning op.start
  else s.stepOperation op .stepping next

/-- A SCAN at a close in STEPPING (R157). -/
def State.scanClose (s : State) (op : Operation) : State :=
  let tb := s.tb
  let plan := s.cl.values.plan
  let appended :=
    if tb.accepted s.cl.values then (tb.list tb.band).append { freq := tb.freq, level := tb.level } else tb.list tb.band
  if tb.freq == highestChannel plan tb.band then
    let first := ((appended.entries.head?).map (·.freq)).getD op.start
    (s.setTuner (tb.setList tb.band { appended with complete := true })).stepOperation op .ending first
  else (s.setTuner (tb.setList tb.band appended)).stepOperation op .stepping (nextChannel plan tb.band tb.freq .up)

/-- The close of a gate in MEASURING: the operation's stage acts on the measurement, and without one the tuner enters LISTENING (R147). -/
def State.actOnMeasurement (s : State) (counter : Counter) : State :=
  match s.tb.op with
  | none => s.setTuner (s.tb.listen counter)
  | some op =>
    match op.target, op.stage, op.kind with
    | none, _, _ => s.setTuner (s.tb.listen counter)
    | some _, .awaiting, _ => s.setTuner (s.tb.listen counter)
    | some _, .tuning, _ => s.listenAndEnd op counter .done (some s.tb.level)
    | some _, .returning, _ => s.listenAndEnd op counter .notFound
    | some _, .ending, _ => s.listenAndEnd op counter .done (some (s.tb.list s.tb.band).entries.length)
    | some _, .stepping, .seek => s.seekClose op counter
    | some _, .stepping, _ => s.scanClose op

/-- A gate closes at a counter value: in MEASURING the tuner acts, in LISTENING the next gate opens (R147, R149). -/
def State.gateCloses (s : State) (counter : Counter) : State :=
  let s1 := (s.setTuner (s.tb.closeGate counter s.freeDraws)).draw
  if s.tb.state == .listening then s1.setTuner (s1.tb.openGate counter) else s1.actOnMeasurement counter

/-- The gate of LISTENING or MEASURING is in its last round. -/
def Tuner.gateDue (tb : Tuner) : Bool :=
  (tb.state == .measuring && tb.phase ≤ 1) || (tb.state == .listening && tb.gate.left ≤ 1)

/-- The phase or gate count of a round begin (R147). -/
def Tuner.count (tb : Tuner) : Tuner :=
  match tb.state with
  | .off => tb
  | .settling | .measuring => { tb with phase := tb.phase - 1 }
  | .listening => { tb with gate := { tb.gate with left := tb.gate.left - 1 } }

/-- A round begin whose settle or gate step a command has made: nothing is counted again, and a gate that the step opened starts at the capture of
this round begin (R147, R148). -/
def Tuner.afterAhead (tb : Tuner) (counter : Counter) : Tuner :=
  let fresh := { tb with taken := { tb.taken with phase := false } }
  match tb.state with
  | .off | .settling => fresh
  | .measuring | .listening => fresh.openGate counter

/-- A command has made the settle or gate step of the coming round begin; an operation that it ended starts the unheld count from 0 there. -/
def State.takePhase (s : State) (operating : Bool) : State :=
  s.setTuner { s.tb with taken := { phase := true, unheld := operating && s.tb.op.isNone } }

/-- The settle or gate step of a round begin, at the counter value captured there. -/
def State.phaseStep (s : State) : State :=
  if s.tb.taken.phase then s.setTuner (s.tb.afterAhead s.rt.counter)
  else if s.tb.gateDue then s.gateCloses s.rt.counter
  else if s.tb.state == .settling && s.tb.phase ≤ 1 then s.setTuner (s.tb.measure s.rt.counter)
  else s.setTuner s.tb.count

/-- One step of the unheld count; at 1000 the tuner enters OFF (R151). -/
def Tuner.unheldMove (tb : Tuner) : Tuner :=
  if tb.state != .off && tb.holders == [] && tb.op.isNone then
    if 999 ≤ tb.unheld then tb.toOff else { tb with unheld := tb.unheld + 1 }
  else tb

/-- The unheld count of a round begin, unless a command has ended an operation there: the count then starts from 0 (R151). -/
def Tuner.unheldStep (tb : Tuner) : Tuner :=
  if tb.taken.unheld then { tb with taken := { tb.taken with unheld := false } } else tb.unheldMove

/-- How the round ends at the tuner: as it stands, or as it stood before a command made the step of the coming round begin (the log's row 1). -/
def Tuner.atEnd (tb : Tuner) : TunerEnd := tb.ended.getD { state := tb.state, band := tb.band, pilot := tb.pilot }

/-- The tuner before a step of the coming round begin that a command makes. -/
def Tuner.ahead (tb : Tuner) : Tuner := { tb with ended := some tb.atEnd }

/-- The capture of the round just ended (R149). -/
def Tuner.capture (tb : Tuner) (d : Demodulated) : CaptureContent :=
  if tb.atEnd.state == .listening then
    .pcm (fortyEight (if tb.atEnd.band == .fm && tb.atEnd.pilot then d.stereo else d.mono.map fun x => (x, x)))
  else .silence

/-- A round begin at the tuner: counts, unheld count, settle or gate, and the capture handed to the publisher (R147 to R151). The unheld count comes
before the gate, so that a tuner that turns OFF closes no gate: the model's choice (the log's row 46). -/
def State.tunerRound (s : State) (fe : FrontEnd) (d : Demodulated) : State :=
  if s.cl.values.tunerFitted then
    let content := s.tb.capture d
    let s1 := (s.setTuner (s.tb.accumulate fe).unheldStep).phaseStep
    { s1 with
      sp := { s1.sp with recT := { s1.sp.recT with capture := { content := content, usable := s.tb.atEnd.state == .listening } } } }
  else s

/-- A change of the tuner's state in the round or at its end leaves the capture unusable (R65, R149); that one at the round begin that ends the round
does is the model's choice (the log's row 47). -/
def State.tunerClose (s : State) : State :=
  if s.cl.values.tunerFitted then
    { s with
      tb := { s.tb with changed := false, ended := none }
      sp := { s.sp with recT := { s.sp.recT with
        capture := { s.sp.recT.capture with usable := s.sp.recT.capture.usable && !s.tb.changed } } } }
  else s

/-! ## Holders (R150, R151) -/

/-- A new holder list: a list that becomes non-empty powers the tuner up, and one that becomes empty starts the unheld count from 0. -/
def State.setHolders (s : State) (holders : List Zone) : State :=
  if !s.cl.values.tunerFitted || (holders == [] && s.tb.holders == []) then s
  else
    let tb := { s.tb with holders := holders, unheld := 0, taken := { s.tb.taken with unheld := false } }
    s.setTuner (if holders != [] && tb.state == .off && s.pt.mode != .standby then tb.resume else tb)

/-- The holder list at a change of one zone's program (R150). -/
def State.moveHolder (s : State) (zone : Zone) (old new : Option Stream) : State :=
  let stream := some (s.ownStream .t)
  if old == new then s
  else
    let kept := if old == stream then s.tb.holders.filter (· != zone) else s.tb.holders
    s.setHolders (if new == stream then kept ++ [zone] else kept)

/-- The holder list rebuilt from the four records in zone order (R150). -/
def State.rebuildHolders (s : State) : State :=
  s.setHolders ((List.finRange 4).filter fun z => s.zt.records[z].program == some (s.ownStream .t))

/-- Leaving STANDBY with a non-empty holder list powers the tuner up (R151). -/
def State.wakeTuner (s : State) : State :=
  if s.cl.values.tunerFitted && s.tb.holders != [] && s.tb.state == .off then s.setTuner s.tb.resume else s

/-- Entry to STANDBY: an operation is aborted and the tuner enters OFF (R154). -/
def State.stopTuner (s : State) : State :=
  let s1 := s.abortOperation
  s1.setTuner s1.tb.toOff

/-! ## Requests (R152, R153) -/

/-- The four tests of a tuner request, in order; none is acceptance. -/
def State.tunerTest (s : State) (zone : Option Zone) (inRange : Bool) : Option ReplyOutcome :=
  if !s.cl.values.tunerFitted then some .noTuner
  else
    match zone with
    | none => some .badValue
    | some z =>
      if !inRange then some .badValue
      else if s.tb.holders != [] && s.tb.holders.head? != some z then some .held
      else if s.pt.mode == .standby then some .busy
      else none

/-- Acceptance: the operation in flight is aborted and the new record formed (R153). -/
def State.startOperation (s : State) (op : Operation) : State :=
  let s1 := s.abortOperation
  s1.setTuner { s1.tb with op := some op, unheld := 0, taken := { s1.tb.taken with unheld := false } }

/-- A new operation record with the frequency held at the take as its start. -/
def State.newOperation (s : State) (kind : OpKind) (requester : Requester) (band : Band) (stage : Stage) : Operation :=
  { kind := kind, requester := requester, direction := .up, start := s.tb.freq, band := band, preset := 0, stage := stage, target := none }

/-- An accepted TUNE (R155). -/
def State.startTune (s : State) (requester : Requester) (band : Band) (freq : Nat) : State :=
  let op := s.newOperation .tune requester band .tuning
  let s1 := s.startOperation op
  s1.setTuner { s1.tb.settle band freq with op := some { op with target := some freq } }

/-- An accepted SEEK (R156). -/
def State.startSeek (s : State) (requester : Requester) (direction : Direction) : State :=
  let op := { s.newOperation .seek requester s.tb.band .stepping with direction := direction }
  (s.startOperation op).stepOperation op .stepping (nextChannel s.cl.values.plan s.tb.band s.tb.freq direction)

/-- An accepted SCAN (R157). -/
def State.startScan (s : State) (requester : Requester) : State :=
  let op := s.newOperation .scan requester s.tb.band .stepping
  let s1 := s.startOperation op
  (s1.setTuner (s1.tb.setList s1.tb.band StationList.empty)).stepOperation op .stepping (lowestChannel s.cl.values.plan s.tb.band)

/-- The result of a RECALL read at the tuner (R158); none is EMPTY. -/
def State.recallResult (s : State) (result : Option RecordSlot) : State :=
  match s.tb.op with
  | some op =>
    match result with
    | none => s.endOperation op .empty
    | some r =>
      if validChannel s.cl.values.plan r.readBand r.freq.toNat then
        s.setTuner { s.tb.settle r.readBand r.freq.toNat with
          op := some { op with band := r.readBand, stage := .tuning, target := some r.freq.toNat } }
      else s.endOperation op .badValue
  | none => s

/-- An accepted PRESET RECALL (R158): a read is handed to the store, and a read that finds the list full gives EMPTY at once (R172). -/
def State.startRecall (s : State) (requester : Requester) (number : Fin 30) : State :=
  let op := { s.newOperation .recall requester s.tb.band .awaiting with preset := number.val + 1 }
  let s1 := s.startOperation op
  let s2 := if s1.tb.state == .off then s1.setTuner s1.tb.resume else s1
  if s2.readsFull then s2.recallResult none else s2.enterRead { number := number, origin := .recall }

/-- The result of a completed read is delivered (R172). -/
def State.deliverRead (s : State) (r : Read) : State :=
  match r.origin with
  | .recall => s.recallResult (s.ps.readResult r.number)
  | .abandoned => s
  | .presetRead requester => s.answerRead r.number requester

/-- The answer to a LIST READ: page p holds the entries 10p to 10p + 9 that exist (R161, R180). -/
def State.listPage (s : State) (requester : Requester) (band : Band) (page : Nat) : ListPageContent :=
  let l := s.tb.list band
  { requester := requester, band := band, page := page, complete := l.complete, count := l.entries.length,
    entries := ((l.entries.drop (10 * page)).take 10).map fun e =>
      ((e.freq - lowestChannel s.cl.values.plan band) / channelStep s.cl.values.plan band, e.level) }

end Sys2Proof.Machine
end

