-- ==== Sys2Proof/Machine/Modes.lean ====
section
/-! DEFINITION. The station modes (sections 3.3 and 3.4): derivation, and what every block does at a change of mode. -/

namespace Sys2Proof.Machine

/-- One of the station's streams is demanded (R40). -/
def State.anyDemand (s : State) : Bool := s.demanded .a || s.demanded .b || s.demanded .t

/-- The table of R40. -/
def State.derivedMode (s : State) : Mode :=
  if !s.ownRecord.standby then .active
  else if s.anyDemand || ownsRun s.st s.own then .serving
  else .standby

/-- What leaving STANDBY powers: the inputs, the takeover timer and a tuner with holders (R47, R93, R151). -/
def State.wake (s : State) : State := ((s.powerInput .a).powerInput .b).startTakeover.wakeTuner

/-- The round timer at entry to STANDBY: the timer stops, and the station stops being the sender (R8, R45). -/
def RoundTimer.sleep (rt : RoundTimer) : RoundTimer := { rt with takeover := .stopped, isSender := false }

/-- The effects of entry to a mode from another (R43 to R45). -/
def State.enterMode (s : State) (old : Mode) : State :=
  let awake := if old == .standby then s.wake else s
  match s.pt.mode with
  | .active => (awake.eachOutput State.activateOutput).checkDecoder.evalGo
  | .serving => (awake.eachOutput State.quietOutput).checkDecoder.evalGo
  | .standby =>
    let asleep := { (s.eachOutput State.standbyOutput) with rt := s.rt.sleep }
    ((asleep.unpowerInput .a).unpowerInput .b).checkDecoder.stopTuner.switchIfDown.evalGo
  | .joining => s

/-- A change of mode, which offers a PRESENCE (R42); a derivation that yields the current mode changes nothing. -/
def State.changeMode (s : State) (m : Mode) : State :=
  if s.pt.mode == m then s
  else ({ s with pt := { s.pt with mode := m } }.announce).enterMode s.pt.mode

/-- The re-derivation of the mode after the join window (R41). -/
def State.rederiveMode (s : State) : State :=
  if s.joined && s.pt.mode != .joining then s.changeMode s.derivedMode else s

/-- The freeing of runs by expiry or correction at the publisher and, for an own run, at the mode logic (R53, R41). -/
def State.afterTableLoss (s : State) (freed : List Stream) : State :=
  let s1 := s.handFreed freed
  if freed.any (·.station == s.own) then s1.rederiveMode else s1

end Sys2Proof.Machine
end

