-- ==== Sys2Proof/Machine/Zones.lean ====
section
/-! DEFINITION. The zone table (chapter 5): ZONE SET and ZONE STATE applied and handed on, role holders and role statuses. -/

namespace Sys2Proof.Machine

/-! ## ZONE SET (R75, R76, R81) -/

/-- The program and standby that a ZONE SET leaves (R76). -/
def programAndStandby (r : ZoneRecord) (f : ZoneSetFields) : Option Stream × Bool :=
  match f.standby, f.program with
  | some true, _ => (none, true)
  | some false, none => (r.program, false)
  | some false, some p => (p, false)
  | none, some (some p) => (some p, false)
  | none, some none => (none, r.standby)
  | none, none => (r.program, r.standby)

/-- The record that a valid ZONE SET leaves (R75, R76). -/
def ZoneRecord.apply (r : ZoneRecord) (f : ZoneSetFields) : ZoneRecord :=
  let ps := programAndStandby r f
  { program := ps.1, listening := f.listening.getD r.listening, volume := f.volume.getD r.volume, mute := f.mute.getD r.mute, standby := ps.2 }

/-- The marks that a ZONE SET leaves at a joining station (R81). -/
def ZoneMarks.apply (m : ZoneMarks) (r : ZoneRecord) (f : ZoneSetFields) : ZoneMarks :=
  let new := r.apply f
  let program := f.program.isSome || new.program != r.program
  let standby := f.standby.isSome || new.standby != r.standby
  { program := m.program || program || (standby && new.standby)
    listening := m.listening || f.listening.isSome
    volume := m.volume || f.volume.isSome
    mute := m.mute || f.mute.isSome
    standby := m.standby || standby || (program && new.program.isSome) }

/-- The records and marks after a ZONE SET; marks are left from the take of the joining PRESENCE to the end of the window. -/
def ZoneTable.applySet (zt : ZoneTable) (f : ZoneSetFields) (marking : Bool) : ZoneTable :=
  let r := zt.records[f.zone]
  { zt with
    records := zt.records.set f.zone (r.apply f)
    marks := if marking then zt.marks.set f.zone ((zt.marks[f.zone]).apply r f) else zt.marks }

/-- One record of a ZONE STATE taken at a joining station: marked fields keep their value (R81). -/
def ZoneRecord.merge (r : ZoneRecord) (m : ZoneMarks) (carried : ZoneRecord) : ZoneRecord :=
  { program := if m.program then r.program else carried.program
    listening := if m.listening then r.listening else carried.listening
    volume := if m.volume then r.volume else carried.volume
    mute := if m.mute then r.mute else carried.mute
    standby := if m.standby then r.standby else carried.standby }

/-- The records after a ZONE STATE (R81). -/
def ZoneTable.applyState (zt : ZoneTable) (carried : Vector ZoneRecord 4) : ZoneTable :=
  { zt with records := Vector.ofFn fun z => (zt.records[z]).merge zt.marks[z] carried[z] }

/-- The changed records are handed on (R77, R82): the publisher, the receiver, the matrix, the mode logic and the outputs. The tuner's
holder list has been changed before. R77 says that the order does not matter, and it does where one ZONE SET turns mute off and changes the program
while the outputs are SILENT and the receiver is RUNNING: the receiver goes first here and switches at once, so that no output ramps up and no
target is held, the model's choice (the log's row 62). -/
def State.handRecords (s : State) (old : ZoneRecord) : State :=
  let s1 := s.followDemands
  let s2 := if s1.ownRecord.program == old.program then s1 else s1.followProgram
  let s3 := s2.rebuildIf (s2.ownRecord.listening != old.listening)
  s3.rederiveMode.evalGo

/-- A valid ZONE SET at the zone table, handed on as one event (R75 to R79). -/
def State.applyZoneSet (s : State) (f : ZoneSetFields) : State :=
  let marking := s.pt.mode == .joining && !s.pt.joinFlag
  let s1 := { s with zt := s.zt.applySet f marking }
  (s1.moveHolder f.zone (s.zt.records[f.zone]).program (s1.zt.records[f.zone]).program).handRecords s.ownRecord

/-- A valid ZONE STATE at a joining station (R80 to R82). -/
def State.applyZoneState (s : State) (carried : Vector ZoneRecord 4) : State :=
  ({ s with zt := s.zt.applyState carried }.rebuildHolders).handRecords s.ownRecord

/-! ## Role holders (R83 to R87) -/

/-- An output is a candidate for a role in a zone (R83). -/
def isCandidate (entries : Vector (Option PeerEntry) 8) (zone : Zone) (role : Role) (k : Station) (n : OutputNo) : Bool :=
  match entries[k] with
  | some e => e.zone == zone && e.mode != .joining && e.outputs[n].role == some role && e.outputs[n].health != .retired
  | none => false

/-- The stations and outputs in the order of R83: ascending station, then ascending output. -/
def holderOrder : List Holder :=
  (List.finRange 8).flatMap fun k => (List.finRange 4).map fun n => { station := k, output := n }

/-- The holder of a role (R83). -/
def holderOf (entries : Vector (Option PeerEntry) 8) (zone : Zone) (role : Role) : Option Holder :=
  holderOrder.find? fun h => isCandidate entries zone role h.station h.output

/-- The holders of the own zone, in role order (R84). -/
def State.deriveHolders (s : State) : Vector (Option Holder) 8 :=
  Vector.ofFn fun i => holderOf s.pt.entries s.ownZone (roleAt i)

/-- The holder of a role in the own zone. -/
def ZoneTable.holder (zt : ZoneTable) (role : Role) : Option Holder := zt.holders.toList.getD (Role.code role) none

/-- The own entry announces a role for an output as a candidate for it (R85). -/
def State.announcesOwn (s : State) (n : OutputNo) (role : Role) : Bool :=
  s.pt.entries[s.own].any fun e => e.outputs[n].role == some role && e.outputs[n].health != .retired && e.mode != .joining

/-- The role status of an output (R85). -/
def State.roleStatusOf (s : State) (n : OutputNo) : RoleStatus :=
  match s.currentRole n with
  | none => .none
  | some role =>
    match s.zt.holder role with
    | none => .none
    | some h =>
      if h = { station := s.own, output := n } then .effective
      else if s.announcesOwn n role then .duplicate
      else .none

/-- The role status of every output is set, with ROLE_DUPLICATE (R85, R86). -/
def State.setRoleStatuses (s : State) : State :=
  let s1 := s.mapOutputs fun n o => { o with roleStatus := s.roleStatusOf n }
  s1.eachOutput fun x n => x.setCondition (.roleDuplicate n) (s.roleStatusOf n == .duplicate)

/-- The derivation of the own zone's holders (R84): a change of the speaker set rebuilds the pending matrix (R87), and the
role statuses are set again. The go condition is evaluated by the event that derives. -/
def State.deriveRoles (s : State) : State :=
  let s1 := { s with zt := { s.zt with holders := s.deriveHolders } }
  (s1.rebuildIf (s1.zt.speakerSet != s.zt.speakerSet)).setRoleStatuses

end Sys2Proof.Machine
end

