-- ==== Sys2Proof/Machine/Clock.lean ====
section
/-! DEFINITION. The round timer (chapter 1): marks sent and heard, the clock error, the trim and the discipline states. -/

namespace Sys2Proof.Machine

/-- 48 samples in units of 1/256 sample (R10). -/
def nominalInterval : Nat := 12288

/-- CLOCK_UNLOCKED is held in FREE and ACQUIRING (R17). -/
def Discipline.unlocked : Discipline → Bool
  | .free | .acquiring => true
  | .locked | .holdover => false

/-- The clock error of a capture that follows another by an interval (R10). -/
def clockError (interval : Nat) : Int := (interval : Int) - 12288

/-- A good error for discipline: at most 64 units (R10). -/
def goodError (e : Int) : Bool := e.natAbs ≤ 64

/-- A large error: more than 512 units (R10). -/
def largeError (e : Int) : Bool := 512 < e.natAbs

/-- The trim after an evaluated mark: half of the error, rounded toward zero, is added and the result limited (R11). -/
def trimAfter (trim e : Int) : Int := max (-256) (min 256 (trim + Int.tdiv e 2))

/-- The mark heard at a round begin is the one that this station has put on the link. -/
def RoundTimer.hearsOwn (rt : RoundTimer) (own : Station) (mark : Option MarkFields) : Bool :=
  rt.outgoing.isSome && !(mark.any (·.sender != own))

/-- The interval since the previous capture: a sender's own periodic mark comes exactly 48 samples after the last (R5, R10). -/
def RoundTimer.interval (rt : RoundTimer) (own : Station) (mark : Option MarkFields) (elapsed : Nat) : Nat :=
  if rt.hearsOwn own mark && rt.outgoing.any (·.periodic) && rt.prevCapture.isSome then nominalInterval else elapsed

/-- The mark heard is this station's own takeover mark (R6). -/
def RoundTimer.hearsTakeover (rt : RoundTimer) (own : Station) (mark : Option MarkFields) : Bool :=
  rt.hearsOwn own mark && rt.outgoing.any (!·.periodic)

/-- A mark that is not evaluated: damaged, from a new sender, this station's own takeover mark, after more than 60 samples, heard by a sender that
lost arbitration to it, or without a previous capture. A takeover mark is to its own station the first mark of a new sender even where the current
sender is the station already, as after a pass through STANDBY or another station's damaged mark (R8, R16, R48). -/
def RoundTimer.rebases (rt : RoundTimer) (own : Station) (mark : Option MarkFields) (interval : Nat) : Bool :=
  match mark with
  | none => true
  | some m =>
    rt.currentSender != some m.sender || rt.hearsTakeover own mark || 15360 < interval || rt.lostAsSender || rt.prevCapture.isNone

/-- Entry to ACQUIRING with the run given. -/
def RoundTimer.acquire (rt : RoundTimer) (run : Nat) : RoundTimer :=
  { rt with discipline := .acquiring, goodRun := run, holdover := 0, holdoverFresh := false }

/-- LOCKED, with both counts at 0. -/
def RoundTimer.lock (rt : RoundTimer) : RoundTimer :=
  { rt with discipline := .locked, goodRun := 0, holdover := 0, holdoverFresh := false }

/-- FREE, with both counts at 0. -/
def RoundTimer.free (rt : RoundTimer) : RoundTimer :=
  { rt with discipline := .free, goodRun := 0, holdover := 0, holdoverFresh := false }

/-- Entry to HOLDOVER (R14); between round begins, the next round begin adds nothing to the count (R15). -/
def RoundTimer.holdOver (rt : RoundTimer) (fresh : Bool) : RoundTimer :=
  { rt with discipline := .holdover, goodRun := 0, holdover := 0, holdoverFresh := fresh }

/-- The good-mark run after a mark: none is a re-base (R13, R15, R16). -/
def runAfter (run : Nat) : Option Int → Nat
  | some e => if goodError e then run + 1 else 0
  | none => 0

/-- HOLDOVER at a round begin (R15). -/
def RoundTimer.holdoverStep (rt : RoundTimer) (error : Option Int) : RoundTimer :=
  let run := runAfter rt.goodRun error
  let count := if rt.holdoverFresh then rt.holdover else rt.holdover + 1
  if 4 ≤ run then rt.lock
  else if 32 ≤ count then rt.free
  else { rt with goodRun := run, holdover := count, holdoverFresh := false }

/-- The discipline at a mark: its error where it is evaluated, none at a re-base (R12 to R15). -/
def RoundTimer.disciplineStep (rt : RoundTimer) (error : Option Int) : RoundTimer :=
  match rt.discipline with
  | .free => rt.acquire 0
  | .acquiring => if 16 ≤ runAfter rt.goodRun error then rt.lock else rt.acquire (runAfter rt.goodRun error)
  | .locked =>
    match error with
    | some e => if largeError e then rt.acquire 0 else rt
    | none => rt.holdOver false
  | .holdover => rt.holdoverStep error

/-- The discipline at the expiry of this station's takeover timer (R12 to R15). -/
def RoundTimer.expiryStep (rt : RoundTimer) : RoundTimer :=
  match rt.discipline with
  | .free => rt
  | .acquiring => { rt with goodRun := 0 }
  | .locked => rt.holdOver true
  | .holdover => { rt with goodRun := 0 }

/-- The round number after a mark (R3). -/
def numberAfter (number : Option RoundNo) : Option MarkFields → Option RoundNo
  | some m => some m.number
  | none => number.map (· + 1)

/-- The adopted D after a mark (R4). -/
def delayAfter (d : Nat) : Option MarkFields → Nat
  | some m => if 2 ≤ m.d ∧ m.d ≤ 6 then m.d else d
  | none => d

/-- The error of a mark that is evaluated in a state with a reference; none at a re-base and in FREE (R10, R11, R12). -/
def RoundTimer.evaluated (rt : RoundTimer) (own : Station) (mark : Option MarkFields) (interval : Nat) : Option Int :=
  if rt.rebases own mark interval || rt.discipline == .free then none else some (clockError interval)

/-- The round timer at a round begin: capture, round number, sender, D, trim, discipline and the takeover timer (R1 to R16). -/
def RoundTimer.hear (rt : RoundTimer) (own : Station) (mayMark : Bool) (mark : Option MarkFields) (elapsed : Nat) : RoundTimer :=
  let interval := rt.interval own mark elapsed
  let error := rt.evaluated own mark interval
  let counter := rt.counter + BitVec.ofNat 32 interval
  let sender := rt.isSender && rt.hearsOwn own mark
  let disciplined := rt.disciplineStep error
  { disciplined with
    counter := counter
    prevCapture := some counter
    takeover := if sender || !mayMark then .stopped else .fromMark
    roundNumber := numberAfter rt.roundNumber mark
    currentSender := match mark with
      | some m => some m.sender
      | none => rt.currentSender
    isSender := sender
    lostAsSender := false
    outgoing := none
    adoptedD := delayAfter rt.adoptedD mark
    trim := match error with
      | some e => trimAfter rt.trim e
      | none => rt.trim
    roundBegun := true }

/-- A station that begins a mark completes it on a quiet link, and in a clash where its number is the lowest (R7, R9). -/
def markCompletes (own : Station) : LinkAtSend → Bool
  | .quiet => true
  | .opening => false
  | .contended other => own ≤ other

/-- A station that begins a mark together with a station of a lower number loses arbitration to it (R9). -/
def markLoses (own : Station) : LinkAtSend → Bool
  | .contended other => other < own
  | .quiet | .opening => false

/-- The mark that the station sends (R3, R4). -/
def State.markToSend (s : State) (periodic : Bool) : OutgoingMark :=
  { number := (s.rt.roundNumber.map (· + 1)).getD 0, d := s.cl.values.d, periodic := periodic }

/-- The body of a mark on the link (13.2). -/
def State.markBody (s : State) (m : OutgoingMark) : List Byte := encodeMark { sender := s.own, number := m.number, d := m.d }

/-- A change of discipline is handed on (R17): CLOCK_UNLOCKED, and a cut where the clock loses its trust. -/
def State.handDiscipline (s : State) (old : Discipline) : State :=
  let s1 := s.setCondition .clockUnlocked s.rt.discipline.unlocked
  if !old.unlocked && s.rt.discipline.unlocked then s1.cut else s1

end Sys2Proof.Machine
end

