-- ==== Sys2Proof/Machine/Rounds.lean ====
section
/-! DEFINITION. The commands of rounds: ROUND_BEGIN, the two moments at which a mark is sent, and the end of holdover. -/

namespace Sys2Proof.Machine

/-! ## The parts of a round begin -/

/-- The ramp step of a round begin with the switch that it may release (R129, R72). -/
def State.rampRound (s : State) : State := s.rampStep.switchIfDown

/-- The round timer and the link controller at a round begin (R1, R17, R19). -/
def State.clockRound (s : State) (r : RoundBegin) : State :=
  { s with rt := s.rt.hear s.own s.mayMark (readMark r.sender r.body) r.elapsed, lc := s.lc.beginRound }.handDiscipline s.rt.discipline

/-- The swap of the mix matrix: first of all, so that no rebuild of the same round begin is swapped (R121). -/
def State.swapRound (s : State) : State := { s with mm := s.mm.swap }

/-- The silence count of one peer entry at a round begin; at 192 the entry is absent (R36). -/
def PeerEntry.age (e : PeerEntry) : Option PeerEntry := if 191 ≤ e.silence then none else some { e with silence := e.silence + 1 }

/-- The peer entries at a round begin. -/
def ageEntries (entries : Vector (Option PeerEntry) 8) : Vector (Option PeerEntry) 8 := entries.map fun e => e.bind PeerEntry.age

/-- The peer table at a round begin: an entry that becomes absent is handed to the zone table (R36, R37). -/
def State.peerRound (s : State) : State :=
  let aged := { s with pt := { s.pt with entries := ageEntries s.pt.entries } }
  if (List.finRange 8).any fun k => s.pt.entries[k].isSome && aged.pt.entries[k].isNone then aged.deriveRoles else aged

/-- The receiver at a round begin: the drop of a changed D, or the presentation (R69, R73). -/
def State.receiverRound (s : State) (oldD : Nat) : State :=
  if s.rt.adoptedD == oldD then s.present else s.dropForD.silentFrame

/-- Volume, decay and recovery of the outputs at a round begin (R132, R134, R136). -/
def State.outputRound (s : State) : State :=
  (s.mapOutputs fun _ o => (o.slew s.ownRecord.volume).decayStep).eachOutput State.recoveryStep

/-- The join window closes: the marks on zone-record fields are cleared, and the join count stands at 80 (R190). -/
def State.closeWindow (s : State) : State :=
  { s with
    zt := { s.zt with marks := Vector.replicate 4 ZoneMarks.clear }
    pt := { s.pt with joinCount := 80 } }

/-- The end of the join window (R190): the window closed, the mode derived, every publication record settled. -/
def State.endWindow (s : State) : State :=
  (s.closeWindow.changeMode s.closeWindow.derivedMode).eachSource fun x src => x.settle src

/-- The join count at a round begin (R188). -/
def State.joinRound (s : State) : State :=
  if s.pt.mode == .joining then
    if 79 ≤ s.pt.joinCount then s.endWindow else { s with pt := { s.pt with joinCount := s.pt.joinCount + 1 } }
  else s

/-- The round is one in which the station's periodic PRESENCE falls (R39). -/
def State.presenceRoundDue (s : State) (number : RoundNo) : Bool := number.toNat % 64 == 8 * s.own.val

/-- The first PRESENCE, at the first round begin with a known round number, and the periodic one (R39, R189). -/
def State.presenceRound (s : State) : State :=
  match s.rt.roundNumber with
  | none => s
  | some m =>
    { s with pt := { s.pt with
        firstOffered := true
        presenceDue := s.pt.presenceDue || !s.pt.firstOffered || s.presenceRoundDue m } }

/-- The local samples and the trim of the round that ends at a round begin: one sample at each 256 units of the counter, and 48 in a round
in which the clock was LOCKED, before the round timer's own step (R98, R99). -/
def State.localRound (s : State) (capture : Counter) : LocalRound :=
  { samples := if s.rt.discipline == .locked then 48 else (s.rt.counter.toNat % 256 + (capture - s.rt.counter).toNat) / 256,
    trim := s.rt.trim }

/-- The inputs, the tuner and the publisher at a round begin (R62, R95 to R101, R147 to R151): a message held back is offered again after what the
inputs and the tuner offer, which is the model's choice (the log's row 42). -/
def State.sourceRound (s : State) (r : RoundBegin) (l : LocalRound) : State :=
  (((s.inputRound .a r.inputA l).inputRound .b r.inputB l).tunerRound r.frontEnd r.demodulated).eachSource State.offerAgain

/-- The end of a round begin at the sources: which captures are usable (R100, R149). -/
def State.sourceClose (s : State) : State := ((s.inputClose .a).inputClose .b).tunerClose

/-- A round begin at a station that has joined (R1). The presentation comes before the switch that an output brought down by the clock releases,
and the inputs and the tuner step before the join window ends: a gate that closes there ends its operation before an entry to STANDBY would abort
it (R154), and the CLAIM offered by R190 follows the kind that the input then has. The go condition is evaluated once for the changes that the clock,
the roles and the receiver make here: where one of them would let an output ramp up and another bars it, as a clock that becomes LOCKED beside a
watchdog that fires in RAMP mode, a SILENT output stays SILENT (R128). These are the model's choices (the log's rows 41, 55 and 65). -/
def State.roundBegin (s : State) (r : RoundBegin) : State :=
  let s0 := if r.rampOrder == .stepFirst then s.swapRound.rampRound else s.swapRound
  let s1 := (s0.clockRound r).peerRound
  let s2 := s1.receiverRound s.rt.adoptedD
  let s3 := s2.sourceRound r (s.localRound s2.rt.counter)
  let s4 := s3.evalGo.switchIfDown
  let s5 := if r.rampOrder == .changeFirst then s4.rampRound else s4
  let s6 := { s5 with sr := { s5.sr with gathered := [] }, om := { s5.om with carrier := 0 } }
  s6.outputRound.joinRound.sourceClose.presenceRound

/-! ## The commands -/

/-- ROUND_BEGIN (R1). No round begins at a station in reset or before it joins. -/
def execRoundBegin (r : RoundBegin) (s : State) : Host.Outcome State Fault Refusal :=
  .next (if s.joined then (s.roundBegin r).closeEvent else s)

/-- SENDER_MARK_DUE (R5, R7, R9, R16): the sender puts its periodic mark on the link, unless another station's mark is there; a mark lost in
arbitration leaves its trace for the round begin that hears the winner's. -/
def execSenderMarkDue (link : LinkAtSend) (s : State) : Host.Outcome State Fault Refusal :=
  .next
    (if s.joined && s.mayMark && s.rt.isSender && s.rt.outgoing.isNone then
      if markCompletes s.own link then { s with rt := { s.rt with outgoing := some (s.markToSend true) } }
      else { s with rt := { s.rt with lostAsSender := s.rt.lostAsSender || markLoses s.own link } }
    else s)

/-- TAKEOVER_TIMER_EXPIRY (R6, R7, R9, R14): the station puts a takeover mark on the link and becomes the sender; for clock discipline
a round has passed without a mark. -/
def execTakeoverTimerExpiry (link : LinkAtSend) (s : State) : Host.Outcome State Fault Refusal :=
  .next
    (if s.joined && s.mayMark && !s.rt.isSender && s.rt.takeover != .stopped && s.rt.outgoing.isNone && markCompletes s.own link then
      { s with
        rt := { s.rt.expiryStep with outgoing := some (s.markToSend false), isSender := true, takeover := .stopped } }.evalGo.closeEvent
    else s)

/-- HOLDOVER_EXPIRY (R15): the last step of the holdover count. Given before the round begin that it stands for, it leaves that round begin to hear
its mark in FREE, without an evaluation: the model's choice (the log's row 1). -/
def execHoldoverExpiry (s : State) : Host.Outcome State Fault Refusal :=
  .next
    (if s.joined && s.rt.discipline == .holdover && 31 ≤ s.rt.holdover && !s.rt.holdoverFresh then
      (s.atRoundBegin fun x => ({ x with rt := x.rt.free }.handDiscipline .holdover).switchIfDown).closeEvent
    else s)

end Sys2Proof.Machine
end

