-- ==== Sys2Proof/Machine/Messages.lean ====
section
/-! DEFINITION. The commands of the control window that no request makes: the void, the table messages, PRESENCE and the kinds that no
block owns. -/

namespace Sys2Proof.Machine

/-- The silence count of a present entry is set to 0 at a taken message (R36). -/
def hearFrom (entries : Vector (Option PeerEntry) 8) (sender : Station) : Vector (Option PeerEntry) 8 :=
  entries.set sender (entries[sender].map fun e => { e with silence := 0 })

/-- The take of a message before its owner acts: the own message leaves the queue, and the sender has been heard (R24, R30, R36). -/
def State.takeMessage (s : State) (field : ArbField) : State :=
  { s with
    lc := s.lc.endPosition s.own field true false
    pt := { s.pt with entries := hearFrom s.pt.entries field.sender } }

/-- A message taken, with what its owner does, and the opening of the next position (R23). The owner sees the state before the take, in which
the position is open, and the state after it. -/
def State.onTake (s : State) (field : ArbField) (act : State → State → State) : State :=
  if s.takes then (act s.endMark (s.endMark.takeMessage field)).closePosition else s

/-- MESSAGE_VOIDED (R22, R24): the message acts on no block and keeps its place; a station that is not its sender drove the void field where
the body it received is bad. -/
def execMessageVoided (field : ArbField) (received : List Byte) (s : State) : Host.Outcome State Fault Refusal :=
  .next
    (if s.takes then
      { s with
        lc := s.lc.endMark.endPosition s.own field false
          (!s.lc.endMark.isOwnPosition s.own field && bodyIsVoid received) }.closePosition
    else s)

/-- The slot table, the publisher and the mode logic at a CLAIM or RELEASE (R50 to R53, R60, R61). Among the publication records of one take
the retries of NO_SLOT act first and the record whose message was taken settles last, so that T or B may offer before A: the model's choice
(the log's row 49). -/
def State.changeTable (s : State) (change : TableChange) (own : Option Source) : State :=
  (({ s with st := change.table }.handFreed change.freed).ownTakenAt own).rederiveMode

/-- CLAIM (R50). -/
def execClaim (sender : Station) (payload : List Byte) (s : State) : Host.Outcome State Fault Refusal :=
  .next (s.onTake { cls := 0, sender := sender } fun before x =>
    x.changeTable (takeClaim x.st sender (claimFields payload)) (before.ownClass0 sender))

/-- RELEASE (R52). -/
def execRelease (sender : Station) (payload : List Byte) (s : State) : Host.Outcome State Fault Refusal :=
  .next (s.onTake { cls := 0, sender := sender } fun before x =>
    x.changeTable (takeRelease x.st sender (releaseField payload)) (before.ownClass0 sender))

/-- ZONE_SET (R75); a message out of range is ignored as a whole, and the mode is re-derived at every take (R41). -/
def execZoneSet (sender : Station) (payload : List Byte) (s : State) : Host.Outcome State Fault Refusal :=
  .next (s.onTake { cls := 1, sender := sender } fun _ x =>
    match zoneSetFields payload with
    | some f => x.applyZoneSet f
    | none => x.rederiveMode)

/-- ZONE_STATE (R80): applied by a JOINING station where it passes the test; the mode is re-derived at every take (R41). -/
def execZoneState (sender : Station) (payload : List Byte) (s : State) : Host.Outcome State Fault Refusal :=
  .next (s.onTake { cls := 1, sender := sender } fun _ x =>
    match x.pt.mode, zoneStateFields payload with
    | .joining, some records => x.applyZoneState records
    | _, _ => x.rederiveMode)

/-! ## PRESENCE -/

/-- The entry that a PRESENCE leaves (R35). -/
def PresenceContent.entry (c : PresenceContent) : PeerEntry := { zone := c.zone, mode := c.mode, outputs := c.outputs, silence := 0 }

/-- The refresh of an entry by a PRESENCE that passes the check (R35). -/
def State.refreshEntry (s : State) (sender : Station) (content : Option PresenceContent) : State :=
  match content with
  | some c => { s with pt := { s.pt with entries := s.pt.entries.set sender (some c.entry) } }.deriveRoles.evalGo
  | none => s

/-- A present entry whose mode is ACTIVE, SERVING or STANDBY. -/
def State.qualifies (s : State) (k : Station) : Bool := s.pt.entries[k].any fun e => e.mode != .joining

/-- The answer to a joining PRESENCE of station j: this station's is the lowest qualifying entry other than j's (R189). -/
def State.answersJoin (s : State) (j : Station) : Bool :=
  s.own != j && s.pt.mode != .joining && s.pt.entries[s.own].isSome
    && (List.finRange 8).find? (fun k => k != j && s.qualifies k) == some s.own

/-- The ZONE STATE offered to a joining station. -/
def State.answerJoin (s : State) (sender : Station) (flagged : Bool) : State :=
  { s with lc := if flagged && s.answersJoin sender then s.lc.offer (.zoneState s.zt.records) else s.lc }

/-- The taken message is this station's own PRESENCE with the joining flag (R38). -/
def State.ownJoiningTaken (s : State) (sender : Station) : Bool :=
  s.lc.isOwnPosition s.own { cls := 4, sender := sender } &&
    match s.lc.inFlight with
    | some (.presence c) => c.joining
    | _ => false

/-- The joining flag is clear in every later content once a flagged PRESENCE has been taken (R38). -/
def State.clearJoinFlag (s : State) (taken : Bool) : State := { s with pt := { s.pt with joinFlag := s.pt.joinFlag && !taken } }

/-- PRESENCE (R35). -/
def execPresence (sender : Station) (payload : List Byte) (s : State) : Host.Outcome State Fault Refusal :=
  .next (s.onTake { cls := 4, sender := sender } fun before x =>
    (((x.clearJoinFlag (before.ownJoiningTaken sender)).refreshEntry sender (presenceFields payload)).answerJoin sender (joiningFlag payload)))

/-! ## Kinds that no block owns (R30, R31) -/

/-- REPLY: taken and heard, and otherwise ignored (R30). -/
def execReply (sender : Station) (_payload : List Byte) (s : State) : Host.Outcome State Fault Refusal :=
  .next (s.onTake { cls := 3, sender := sender } fun _ x => x)

/-- LIST_PAGE: taken and heard, and otherwise ignored (R30). -/
def execListPage (sender : Station) (_payload : List Byte) (s : State) : Host.Outcome State Fault Refusal :=
  .next (s.onTake { cls := 3, sender := sender } fun _ x => x)

/-- PRESET_DATA: taken and heard, and otherwise ignored (R30). -/
def execPresetData (sender : Station) (_payload : List Byte) (s : State) : Host.Outcome State Fault Refusal :=
  .next (s.onTake { cls := 3, sender := sender } fun _ x => x)

/-- STATUS: taken and heard, and otherwise ignored (R30). -/
def execStatus (sender : Station) (_payload : List Byte) (s : State) : Host.Outcome State Fault Refusal :=
  .next (s.onTake { cls := 3, sender := sender } fun _ x => x)

/-- UNKNOWN_KIND: a kind code that names no kind, or a class that is not its kind's: taken and ignored (R31). -/
def execUnknownKind (field : ArbField) (_code : BitVec 5) (s : State) : Host.Outcome State Fault Refusal :=
  .next (s.onTake field fun _ x => x)

end Sys2Proof.Machine
end

