-- ==== Sys2Proof/Machine/Requests.lean ====
section
/-! DEFINITION. The requests (chapter 11): each is handled by its owner at the station addressed, and taken and ignored elsewhere. -/

namespace Sys2Proof.Machine

/-- A request is acted on at the station it names (R177). -/
def State.onRequest (s : State) (cls : BitVec 3) (sender : Station) (payload : List Byte) (act : State → State) : State :=
  s.onTake { cls := cls, sender := sender } fun _ x => if addressedTo x.own payload then act x else x

/-! ## ROLE MAP (R90, R91) -/

/-- An accepted ROLE MAP (R91): the override, the output's counts, its role status, PRESENCE and REPLY. The go condition is evaluated once, after
the role status is set again: an output that leaves RETIRED for another role while the table still shows it EFFECTIVE stays SILENT, where R128,
read at its entry to SILENT with the old status, would start a ramp. No rule gives the order, and this one is the model's choice (the log's
row 63). -/
def State.mapRole (s : State) (requester : Requester) (n : OutputNo) (role : Option Role) : State :=
  let s1 := { s with cl := { s.cl with overrides := s.cl.overrides.set n (some role) } }
  ((s1.restoreOutput n).setRoleStatuses.announce.evalGo).offerReply requester .roleMap .done

/-- The owner of ROLE MAP (R90). -/
def State.onRoleMap (s : State) (sender : Station) (payload : List Byte) : State :=
  match roleMapFields payload with
  | some (zone, n, role) => s.mapRole { station := sender, zone := zone } n role
  | none => s.refuse sender payload .roleMap .badValue

/-- ROLE_MAP (R90). -/
def execRoleMap (sender : Station) (payload : List Byte) (s : State) : Host.Outcome State Fault Refusal :=
  .next (s.onRequest 1 sender payload fun x => x.onRoleMap sender payload)

/-! ## Tuner requests (R152 to R158) -/

/-- The answer of the tuner to a request: a refusal by the first test that fails, otherwise the operation. -/
def State.tunerRequest {α : Type} (s : State) (sender : Station) (payload : List Byte) (kind : RequestKind) (fields : Option α)
    (start : State → Requester → α → State) : State :=
  match s.tunerTest (requesterZone payload) fields.isSome, fields with
  | some outcome, _ => s.refuse sender payload kind outcome
  | none, some x => start s (s.requesterAt sender payload) x
  | none, none => s

/-- The band and frequency of a TUNE that name a valid channel of the station's plan. -/
def State.channelFields (s : State) (payload : List Byte) : Option (Band × Nat) :=
  (tuneFields payload).filter fun x => validChannel s.cl.values.plan x.1 x.2

def State.onTune (s : State) (sender : Station) (payload : List Byte) : State :=
  s.tunerRequest sender payload .tune (s.channelFields payload) fun x r c => x.startTune r c.1 c.2

/-- TUNE (R155). -/
def execTune (sender : Station) (payload : List Byte) (s : State) : Host.Outcome State Fault Refusal :=
  .next (s.onRequest 2 sender payload fun x => x.onTune sender payload)

def State.onSeek (s : State) (sender : Station) (payload : List Byte) : State :=
  s.tunerRequest sender payload .seek (directionAt payload) fun x r d => x.startSeek r d

/-- SEEK (R156). -/
def execSeek (sender : Station) (payload : List Byte) (s : State) : Host.Outcome State Fault Refusal :=
  .next (s.onRequest 2 sender payload fun x => x.onSeek sender payload)

def State.onScan (s : State) (sender : Station) (payload : List Byte) : State :=
  s.tunerRequest sender payload .scan (some ()) fun x r _ => x.startScan r

/-- SCAN (R157). -/
def execScan (sender : Station) (payload : List Byte) (s : State) : Host.Outcome State Fault Refusal :=
  .next (s.onRequest 2 sender payload fun x => x.onScan sender payload)

def State.onPresetRecall (s : State) (sender : Station) (payload : List Byte) : State :=
  s.tunerRequest sender payload .presetRecall (presetAt payload) fun x r n => x.startRecall r n

/-- PRESET_RECALL (R158). -/
def execPresetRecall (sender : Station) (payload : List Byte) (s : State) : Host.Outcome State Fault Refusal :=
  .next (s.onRequest 2 sender payload fun x => x.onPresetRecall sender payload)

/-! ## Preset store requests (R166, R172) -/

/-- A PRESET STORE as an entry: its number and name, with the tuner's band and frequency at the take. -/
def State.storeEntry (s : State) (sender : Station) (payload : List Byte) : Option StoreEntry :=
  match requesterZone payload, presetAt payload, nameAt payload with
  | some z, some n, some name => some (.store n s.tb.band s.tb.freq name { station := sender, zone := z })
  | _, _, _ => none

/-- A PRESET CLEAR as an entry. -/
def clearEntry (sender : Station) (payload : List Byte) : Option StoreEntry :=
  match requesterZone payload, presetAt payload with
  | some z, some n => some (.clear n { station := sender, zone := z })
  | _, _ => none

/-- The tests of R166 after the first, in order; none is acceptance. -/
def State.storeTest (s : State) (e : StoreEntry) : Option ReplyOutcome :=
  if e.number.val + 1 ≤ s.cl.values.fixedCount then some .protectedPreset
  else if e.kind == .presetStore && !s.cl.values.tunerFitted then some .noTuner
  else if e.kind == .presetStore && !(s.tb.state == .listening && s.tb.op.isNone) then some .busy
  else if 4 ≤ s.ps.queue.length then some .queueFull
  else none

/-- An accepted entry goes to the tail of the queue, ACCEPTED is offered, and the engine begins if it may (R166, R168). -/
def State.acceptEntry (s : State) (e : StoreEntry) : State :=
  ((s.setStore { s.ps with queue := s.ps.queue ++ [e] }).offerReply e.requester e.kind .accepted).engineBegin

/-- A store or clear at the preset store (R166). -/
def State.onStoreEntry (s : State) (sender : Station) (payload : List Byte) (kind : RequestKind) (entry : Option StoreEntry) : State :=
  match entry with
  | none => s.refuse sender payload kind .badValue
  | some e =>
    match s.storeTest e with
    | some outcome => s.refuse sender payload kind outcome
    | none => s.acceptEntry e

/-- PRESET_STORE (R166). -/
def execPresetStore (sender : Station) (payload : List Byte) (s : State) : Host.Outcome State Fault Refusal :=
  .next (s.onRequest 2 sender payload fun x => x.onStoreEntry sender payload .presetStore (x.storeEntry sender payload))

/-- PRESET_CLEAR (R166). -/
def execPresetClear (sender : Station) (payload : List Byte) (s : State) : Host.Outcome State Fault Refusal :=
  .next (s.onRequest 2 sender payload fun x => x.onStoreEntry sender payload .presetClear (clearEntry sender payload))

/-- The owner of PRESET READ (R172). -/
def State.onPresetRead (s : State) (sender : Station) (payload : List Byte) : State :=
  match requesterZone payload, presetAt payload with
  | some z, some n =>
    if s.readsFull then s.refuse sender payload .presetRead .busy
    else s.enterRead { number := n, origin := .presetRead { station := sender, zone := z } }
  | _, _ => s.refuse sender payload .presetRead .badValue

/-- PRESET_READ (R172). -/
def execPresetRead (sender : Station) (payload : List Byte) (s : State) : Host.Outcome State Fault Refusal :=
  .next (s.onRequest 2 sender payload fun x => x.onPresetRead sender payload)

/-! ## LIST READ and STATUS QUERY (R161, R178) -/

/-- The owner of LIST READ (R161). -/
def State.onListRead (s : State) (sender : Station) (payload : List Byte) : State :=
  if !s.cl.values.tunerFitted then s.refuse sender payload .listRead .noTuner
  else
    match requesterZone payload, listReadFields payload with
    | some z, some (band, page) => s.offer (.listPage (s.listPage { station := sender, zone := z } band page))
    | _, _ => s.refuse sender payload .listRead .badValue

/-- LIST_READ (R161). -/
def execListRead (sender : Station) (payload : List Byte) (s : State) : Host.Outcome State Fault Refusal :=
  .next (s.onRequest 2 sender payload fun x => x.onListRead sender payload)

/-- The owner of STATUS QUERY (R178). -/
def State.onStatusQuery (s : State) (sender : Station) (payload : List Byte) : State :=
  match requesterZone payload with
  | some _ => s.reportStatus
  | none => s.refuse sender payload .statusQuery .badValue

/-- STATUS_QUERY (R178). -/
def execStatusQuery (sender : Station) (payload : List Byte) (s : State) : Host.Outcome State Fault Refusal :=
  .next (s.onRequest 2 sender payload fun x => x.onStatusQuery sender payload)

end Sys2Proof.Machine
end

