-- ==== Sys2Proof/Machine/SlotEvents.lean ====
section
/-! DEFINITION. The commands of the audio slots: SLOT_END and SLOT_EXPIRY. -/

namespace Sys2Proof.Machine

/-- The slot table at the end of a slot, with the freeing handed on (R53, R55, R56). -/
def State.judge (s : State) (slot : SlotNo) (header : Option SlotHeader) : State :=
  let change := judgeSlot s.st slot header
  { s with st := change.table }.afterTableLoss change.freed

/-- What a slot brings before its header is judged: the bytes this station sent in it, what the receiver gathers, and the end of the
control window (R19, R65, R68). The moment that decides what is sent is the end of the slot: the table, the record and the capture are read as they
stand there, which is the model's choice (the log's row 52). -/
def State.hearSlot (s : State) (slot : SlotNo) (header : Option (SlotHeader × List Byte)) : State :=
  { s with
    lc := { s.lc with windowOpen := false, markOnLink := false }
    sp := { s.sp with sentSlot := (s.sentBytes slot).or s.sp.sentSlot }
    sr := { s.sr with gathered := s.gather slot header }
    freeDraws := s.freeDraws + 1 }

/-- The end of a slot at a station at which the round has begun. -/
def State.slotEnds (s : State) (slot : SlotNo) (heard : List Byte) : State :=
  let header := validHeader s.rt.roundNumber slot heard
  let s1 := (s.hearSlot slot header).judge slot (header.map (·.1))
  if slot == 23 then s1.writeRing else s1

/-- SLOT_END (R55). -/
def execSlotEnd (slot : SlotNo) (heard : List Byte) (s : State) : Host.Outcome State Fault Refusal :=
  .next (if s.takes then (s.slotEnds slot heard).closeEvent else s)

/-- SLOT_EXPIRY (R55): the last step of a held slot's silence count. -/
def execSlotExpiry (slot : SlotNo) (s : State) : Host.Outcome State Fault Refusal :=
  .next (if s.takes && s.st[slot].any (7 ≤ ·.silence) then (s.judge slot none).closeEvent else s)

end Sys2Proof.Machine
end

