-- ==== Sys2Proof/Machine/Timers.lean ====
section
/-! DEFINITION. The expiries of round-counted timers as commands of their own. A round begin performs the expiries that fall at it; the
command performs the last step of a timer that stands one step before its limit, and without such a timer it does nothing. The round begin that the
command stands for does not make the step again. -/

namespace Sys2Proof.Machine

/-- WATCHDOG_EXPIRY (R70, R71, R113): the presentation of the last MISSING round, which hands the decoder of a PACKED program its bad block. -/
def execWatchdogExpiry (s : State) : Host.Outcome State Fault Refusal :=
  .next
    (if s.joined && s.sr.state == .running && s.cl.values.watchdogLimit ≤ s.sr.watchdog + 1 then
      (s.atRoundBegin fun x => x.presentMissing.fireWatchdog.evalGo.switchIfDown).closeEvent
    else s)

/-- PEER_ABSENCE (R36, R37). -/
def execPeerAbsence (station : Station) (s : State) : Host.Outcome State Fault Refusal :=
  .next
    (if s.joined && s.pt.entries[station].any (191 ≤ ·.silence) then
      (s.atRoundBegin fun x => { x with pt := { x.pt with entries := x.pt.entries.set station none } }.deriveRoles.evalGo).closeEvent
    else s)

/-- RAMP_UP_COMPLETE (R129). -/
def execRampUpComplete (output : OutputNo) (s : State) : Host.Outcome State Fault Refusal :=
  .next
    (if s.joined && s.om.outputs[output].state == .rampUp && 15 ≤ s.om.outputs[output].ramp then
      (s.setOutput output (s.om.outputs[output].rampAhead s.isActive)).closeEvent
    else s)

/-- RAMP_DOWN_COMPLETE (R129, R72). -/
def execRampDownComplete (output : OutputNo) (s : State) : Host.Outcome State Fault Refusal :=
  .next
    (if s.joined && s.om.outputs[output].state == .rampDown && s.om.outputs[output].ramp ≤ 1 then
      (s.atRoundBegin fun x => (x.setOutput output (x.om.outputs[output].rampAhead x.isActive)).evalGo.switchIfDown).closeEvent
    else s)

/-- FAULT_RECOVERY_END (R134). The round begin that the command stands for makes no step of a ramp that starts there, nor, where the line is
asserted, of the counts that the fault starts (R129, R136). -/
def execFaultRecoveryEnd (output : OutputNo) (s : State) : Host.Outcome State Fault Refusal :=
  .next
    (if s.joined && s.om.outputs[output].state == .faulted && s.om.outputs[output].recovery ≤ 1 then
      (((s.recoverAt output 2).holdRamp output).holdStepsIf output s.pins.faultLines[output]).closeEvent
    else s)

/-- OVERLOAD_DECAY (R136). -/
def execOverloadDecay (output : OutputNo) (s : State) : Host.Outcome State Fault Refusal :=
  .next
    (if s.joined && s.om.outputs[output].decayDue then
      (s.setOutput output s.om.outputs[output].decayAhead).closeEvent
    else s)

/-- ACQUIRING_END (R95, R98, R99, R101): the step of the coming round begin; the round itself ends in ACQUIRING. -/
def execAcquiringEnd (input : InputId) (s : State) : Host.Outcome State Fault Refusal :=
  .next
    (if s.inputsPowered && (s.ir.get input).state == .acquiring && (s.ir.get input).rateClass.isSome && 7 ≤ (s.ir.get input).steady then
      (s.putInput input ((s.ir.get input).ahead InputRecord.acquired)).closeEvent
    else s)

/-- SYNC_LOST (R96, R97, R99): the step of the coming round begin; the round itself ends with the state and the buffer before it. -/
def execSyncLost (input : InputId) (s : State) : Host.Outcome State Fault Refusal :=
  .next
    (if (s.ir.get input).withoutSync == 1 && !(s.ir.get input).patternSeen then
      (s.atInput input fun r => r.ahead InputRecord.loseSync).closeEvent
    else s)

/-- SETTLE_END (R147, R149): the step of the coming round begin. -/
def execSettleEnd (s : State) : Host.Outcome State Fault Refusal :=
  .next
    (if s.joined && s.cl.values.tunerFitted && s.tb.state == .settling && s.tb.phase ≤ 1 then
      ((s.setTuner (s.tb.ahead.measure s.rt.counter)).takePhase false).closeEvent
    else s)

/-- GATE_CLOSE (R147, R148): the local time and the front-end readings since the last round begin close the gate. -/
def execGateClose (elapsed : Nat) (frontEnd : FrontEnd) (s : State) : Host.Outcome State Fault Refusal :=
  .next
    (if s.joined && s.cl.values.tunerFitted && s.tb.gateDue then
      (((s.setTuner (s.tb.ahead.accumulate frontEnd)).gateCloses (s.rt.counter + BitVec.ofNat 32 elapsed)).takePhase s.tb.op.isSome).closeEvent
    else s)

/-- UNHELD_TIMEOUT (R149, R151): the step of the coming round begin. -/
def execUnheldTimeout (s : State) : Host.Outcome State Fault Refusal :=
  .next
    (if s.joined && s.cl.values.tunerFitted && 999 ≤ s.tb.unheld then (s.setTuner s.tb.ahead.unheldMove).closeEvent else s)

/-- JOIN_WINDOW_END (R190). Given before the round begin that it stands for, it ends the window before the presentation and the steps of that round
begin, where ROUND_BEGIN alone ends it after them: the model's choice (the log's row 1). -/
def execJoinWindowEnd (s : State) : Host.Outcome State Fault Refusal :=
  .next (if s.joined && s.pt.mode == .joining && 79 ≤ s.pt.joinCount then (s.atRoundBegin State.endWindow).closeEvent else s)

end Sys2Proof.Machine
end

