-- ==== Sys2Proof/Machine/PinEvents.lean ====
section
/-! DEFINITION. The commands of the pins: fault lines, supply, MUTE, input clocks and content, and the carrier. In reset no event at a pin
is taken; the level of a pin is followed. -/

namespace Sys2Proof.Machine

/-- The level of a fault line. -/
def State.driveFaultLine (s : State) (n : OutputNo) (on : Bool) : State :=
  { s with pins := { s.pins with faultLines := s.pins.faultLines.set n on } }

/-- A fault of an output with the switch that it may release (R72, R133); one at the coming round begin, taken before its steps, is an event of that
round begin, which swaps no matrix that the switch rebuilds (R121, R136). -/
def State.faultEvent (s : State) (n : OutputNo) (edge : FaultEdge) : State :=
  if edge == .assertsAheadOfRoundBegin then s.atRoundBegin fun x => ((x.countFault n).holdSteps n).switchIfDown
  else (s.countFault n).switchIfDown

/-- OUTPUT_FAULT (R133, R136, R137): an assertion may be a fault; a release changes the level alone. -/
def execOutputFault (output : OutputNo) (edge : FaultEdge) (s : State) : Host.Outcome State Fault Refusal :=
  .next
    (let driven := s.driveFaultLine output (edge != .releases)
    if !s.inReset && !s.pins.faultLines[output] && (s.om.outputs[output]).faultable edge then
      (driven.faultEvent output edge).closeEvent
    else driven)

/-- SUPPLY_MOVE_TO_LOW (R138, R139). -/
def execSupplyMoveToLow (s : State) : Host.Outcome State Fault Refusal :=
  .next
    (if !s.inReset && s.sm == .normal then ({ s with sm := .low }.setCondition .supplyLow true).evalGo.closeEvent else s)

/-- SUPPLY_MOVE_TO_NORMAL (R138, R139, R174). -/
def execSupplyMoveToNormal (s : State) : Host.Outcome State Fault Refusal :=
  .next
    (if !s.inReset && s.sm == .low then
      ({ s with sm := .normal }.setCondition .supplyLow false).evalGo.engineBegin.closeEvent
    else s)

/-- A change of the MUTE line (R140). -/
def State.driveMute (s : State) (on : Bool) : State :=
  let s1 := { s with pins := { s.pins with mute := on } }
  if s.inReset then s1 else (s1.setCondition .muteLine on).evalGo.closeEvent

/-- MUTE_LINE_ASSERT (R140). -/
def execMuteLineAssert (s : State) : Host.Outcome State Fault Refusal := .next (s.driveMute true)

/-- MUTE_LINE_RELEASE (R140). -/
def execMuteLineRelease (s : State) : Host.Outcome State Fault Refusal := .next (s.driveMute false)

/-- The clock pin of an input. -/
def State.driveClock (s : State) (id : InputId) (on : Bool) : State := { s with pins := s.pins.setClock id on }

/-- CLOCK_GAINED (R94). -/
def execClockGained (input : InputId) (s : State) : Host.Outcome State Fault Refusal :=
  .next
    (if s.inputsPowered && (s.ir.get input).state == .noSignal then
      ((s.driveClock input true).putInput input { InputRecord.reset with state := .acquiring, clockGap := true }).closeEvent
    else s.driveClock input true)

/-- CLOCK_LOST (R94). The pattern seen in the round is forgotten with the run, the counter and the rounds without sync, so that a clock back in
the same round needs a pattern of its own: the model's choice (the log's row 48). -/
def execClockLost (input : InputId) (s : State) : Host.Outcome State Fault Refusal :=
  .next
    (((s.driveClock input false).atInput input fun _ => { InputRecord.reset with clockGap := true }).closeEvent)

/-- SYNC_PATTERN (R96, R97). -/
def execSyncPattern (input : InputId) (counter : Byte) (s : State) : Host.Outcome State Fault Refusal :=
  .next ((s.atInput input fun r => r.seePattern counter).closeEvent)

/-- BLOCK_COMPLETION (R101): a block whose framing began at a sync pattern. -/
def execBlockCompletion (input : InputId) (block : List Byte) (s : State) : Host.Outcome State Fault Refusal :=
  .next ((s.atInput input fun r => if r.inProgress then r.complete block else r).closeEvent)

/-- CARRIER_BOUNDARY (R142). -/
def execCarrierBoundary (s : State) : Host.Outcome State Fault Refusal :=
  .next
    (if s.inReset then s
    else
      let s1 := s.mapOutputs (s.boundaryOutput s.om.period)
      { s1 with om := { s1.om with carrier := min (s.om.carrier + 1) 376 } })

end Sys2Proof.Machine
end

