-- ==== Sys2Proof/Machine/StoreEvents.lean ====
section
/-! DEFINITION. The commands of the preset store's own clock: reads, and the ends of the five steps. -/

namespace Sys2Proof.Machine

/-- READ_SUSPEND_DELAY_END (R173): the service of the first read begins. -/
def execReadSuspendDelayEnd (s : State) : Host.Outcome State Fault Refusal :=
  .next
    (match s.ps.engine with
    | .suspended _ => s.setStore { s.ps with readInService := s.ps.reads != [] }
    | .idle => s
    | .running _ => s)

/-- The completion of the read in service: its result is taken from the index as it stands, and the next read or the engine goes on. -/
def State.completeRead (s : State) (r : Read) (rest : List Read) : State :=
  ((s.setStore (s.ps.afterRead rest)).deliverRead r).engineBegin

/-- READ_COMPLETE (R172, R173). -/
def execReadComplete (s : State) : Host.Outcome State Fault Refusal :=
  .next
    (match s.ps.readInService, s.ps.reads with
    | true, r :: rest => (s.completeRead r rest).closeEvent
    | _, _ => s)

/-- PROGRAMMING_COMMIT (R169). -/
def execProgrammingCommit (s : State) : Host.Outcome State Fault Refusal :=
  .next
    (match s.ps.engine, s.ps.current with
    | .running .programming, some p => (s.commit p).closeEvent
    | _, _ => s)

/-- SUPERSEDING_END (R170). -/
def execSupersedingEnd (s : State) : Host.Outcome State Fault Refusal :=
  .next
    (match s.ps.engine, s.ps.current.bind (·.previous) with
    | .running .superseding, some r => (s.supersede r).closeEvent
    | _, _ => s)

/-- ERASING_END (R171). -/
def execErasingEnd (s : State) : Host.Outcome State Fault Refusal :=
  .next
    (match s.ps.engine, s.ps.compaction with
    | .running .erasing, some c => (s.endErase c).closeEvent
    | _, _ => s)

/-- COPYING_END (R171). -/
def execCopyingEnd (s : State) : Host.Outcome State Fault Refusal :=
  .next
    (match s.ps.engine, s.ps.compaction with
    | .running .copying, some c => (s.endCopy c).closeEvent
    | _, _ => s)

/-- HEADER_END (R171, R176). -/
def execHeaderEnd (s : State) : Host.Outcome State Fault Refusal :=
  .next
    (match s.ps.engine, s.ps.compaction with
    | .running .header, some c => (s.endHeader c).closeEvent
    | _, _ => s)

end Sys2Proof.Machine
end

