-- ==== Sys2Proof/Machine/Startup.lean ====
section
/-! DEFINITION. The commands of reset, configuration and joining (chapter 12). -/

namespace Sys2Proof.Machine

/-- A cause of reset held or not. -/
def ResetControl.set (rc : ResetControl) (cause : ResetCause) (on : Bool) : ResetControl :=
  match cause with
  | .powerOn => { rc with powerOn := on }
  | .nReset => { rc with nReset := on }

def ResetControl.holds (rc : ResetControl) : Bool := rc.powerOn || rc.nReset

/-- RESET (R186): every block at its reset values; the preset sectors stay as the last completed steps left them. -/
def execReset (cause : ResetCause) (s : State) : Host.Outcome State Fault Refusal :=
  .next (State.resetWith (s.ps.sectorsAfterReset s.freeDraws) (s.rc.set cause true) s.pins (s.freeDraws + 1) s.pending)

/-- The part leaves reset: the straps are read and the condition set is formed (R140, R182, R186). -/
def State.leaveReset (s : State) (straps : Station) : State :=
  { s with
    cl := { s.cl with station := straps }
    cr := { Conditions.reset.put .muteLine s.pins.mute with statusDue := false } }

/-- LEAVE_RESET (R186): a cause ends, and the part leaves reset where no other holds. -/
def execLeaveReset (cause : ResetCause) (straps : Station) (s : State) : Host.Outcome State Fault Refusal :=
  .next
    (let rc := s.rc.set cause false
    if s.rc.holds && !rc.holds then { s with rc := rc }.leaveReset straps else { s with rc := rc })

/-- The values of an image, or the defaults of an invalid one, handed to every block (R187, R4, R146). -/
def State.configure (s : State) (values : Option ConfigValues) : State :=
  let v := values.getD ConfigValues.default
  ({ s with
    cl := { s.cl with imageRead := true, valid := values.isSome, values := v }
    rt := { s.rt with adoptedD := v.d }
    tb := { s.tb with band := .fm, freq := lowestChannel v.plan .fm } }.setCondition .configInvalid values.isNone).announce

/-- IMAGE_READ (R187): once after a reset. -/
def execImageRead (image : List Byte) (s : State) : Host.Outcome State Fault Refusal :=
  .next (if !s.inReset && !s.cl.imageRead then (s.configure (readImage image)).closeEvent else s)

/-- RECOVERY_END (R175, R176). -/
def execRecoveryEnd (s : State) : Host.Outcome State Fault Refusal :=
  .next (if !s.inReset && !s.ps.recoveryEnded then (s.setStore s.ps.recover).engineBegin.closeEvent else s)

/-- The entry to JOINING (R188): the join count at 0, the takeover timer started, the inputs powered, STATUS offered. -/
def State.startJoin (s : State) : State :=
  let s1 := { s with
    cl := { s.cl with joined := true }
    pt := { s.pt with mode := .joining, joinCount := 0 }
    rt := { s.rt with takeover := .fromJoin } }
  ((s1.powerInput .a).powerInput .b).reportStatus

/-- JOIN_START (R188): once the image has been read and recovery has ended. -/
def execJoinStart (s : State) : Host.Outcome State Fault Refusal :=
  .next (if !s.inReset && s.cl.imageRead && s.ps.recoveryEnded && !s.cl.joined then s.startJoin.closeEvent else s)

end Sys2Proof.Machine
end

