-- ==== Sys2Proof/Machine/Dispatch.lean ====
section
/-! DEFINITION. The meaning of every command, one arm for each. -/

namespace Sys2Proof.Machine

def exec (i : Instr) (s : State) : Host.Outcome State Fault Refusal :=
  match i with
  | .roundBegin r => Sys2Proof.Machine.execRoundBegin r s
  | .senderMarkDue link => Sys2Proof.Machine.execSenderMarkDue link s
  | .takeoverTimerExpiry link => Sys2Proof.Machine.execTakeoverTimerExpiry link s
  | .holdoverExpiry => Sys2Proof.Machine.execHoldoverExpiry s
  | .messageVoided field received => Sys2Proof.Machine.execMessageVoided field received s
  | .claim sender payload => Sys2Proof.Machine.execClaim sender payload s
  | .release sender payload => Sys2Proof.Machine.execRelease sender payload s
  | .zoneSet sender payload => Sys2Proof.Machine.execZoneSet sender payload s
  | .zoneState sender payload => Sys2Proof.Machine.execZoneState sender payload s
  | .roleMap sender payload => Sys2Proof.Machine.execRoleMap sender payload s
  | .tune sender payload => Sys2Proof.Machine.execTune sender payload s
  | .seek sender payload => Sys2Proof.Machine.execSeek sender payload s
  | .scan sender payload => Sys2Proof.Machine.execScan sender payload s
  | .presetRecall sender payload => Sys2Proof.Machine.execPresetRecall sender payload s
  | .presetStore sender payload => Sys2Proof.Machine.execPresetStore sender payload s
  | .presetClear sender payload => Sys2Proof.Machine.execPresetClear sender payload s
  | .presetRead sender payload => Sys2Proof.Machine.execPresetRead sender payload s
  | .listRead sender payload => Sys2Proof.Machine.execListRead sender payload s
  | .statusQuery sender payload => Sys2Proof.Machine.execStatusQuery sender payload s
  | .presence sender payload => Sys2Proof.Machine.execPresence sender payload s
  | .reply sender payload => Sys2Proof.Machine.execReply sender payload s
  | .listPage sender payload => Sys2Proof.Machine.execListPage sender payload s
  | .presetData sender payload => Sys2Proof.Machine.execPresetData sender payload s
  | .status sender payload => Sys2Proof.Machine.execStatus sender payload s
  | .unknownKind field code => Sys2Proof.Machine.execUnknownKind field code s
  | .slotEnd slot heard => Sys2Proof.Machine.execSlotEnd slot heard s
  | .slotExpiry slot => Sys2Proof.Machine.execSlotExpiry slot s
  | .watchdogExpiry => Sys2Proof.Machine.execWatchdogExpiry s
  | .peerAbsence station => Sys2Proof.Machine.execPeerAbsence station s
  | .rampUpComplete output => Sys2Proof.Machine.execRampUpComplete output s
  | .rampDownComplete output => Sys2Proof.Machine.execRampDownComplete output s
  | .outputFault output edge => Sys2Proof.Machine.execOutputFault output edge s
  | .faultRecoveryEnd output => Sys2Proof.Machine.execFaultRecoveryEnd output s
  | .overloadDecay output => Sys2Proof.Machine.execOverloadDecay output s
  | .supplyMoveToLow => Sys2Proof.Machine.execSupplyMoveToLow s
  | .supplyMoveToNormal => Sys2Proof.Machine.execSupplyMoveToNormal s
  | .muteLineAssert => Sys2Proof.Machine.execMuteLineAssert s
  | .muteLineRelease => Sys2Proof.Machine.execMuteLineRelease s
  | .clockGained input => Sys2Proof.Machine.execClockGained input s
  | .clockLost input => Sys2Proof.Machine.execClockLost input s
  | .acquiringEnd input => Sys2Proof.Machine.execAcquiringEnd input s
  | .syncPattern input counter => Sys2Proof.Machine.execSyncPattern input counter s
  | .syncLost input => Sys2Proof.Machine.execSyncLost input s
  | .blockCompletion input block => Sys2Proof.Machine.execBlockCompletion input block s
  | .settleEnd => Sys2Proof.Machine.execSettleEnd s
  | .gateClose elapsed frontEnd => Sys2Proof.Machine.execGateClose elapsed frontEnd s
  | .unheldTimeout => Sys2Proof.Machine.execUnheldTimeout s
  | .readSuspendDelayEnd => Sys2Proof.Machine.execReadSuspendDelayEnd s
  | .readComplete => Sys2Proof.Machine.execReadComplete s
  | .programmingCommit => Sys2Proof.Machine.execProgrammingCommit s
  | .supersedingEnd => Sys2Proof.Machine.execSupersedingEnd s
  | .erasingEnd => Sys2Proof.Machine.execErasingEnd s
  | .copyingEnd => Sys2Proof.Machine.execCopyingEnd s
  | .headerEnd => Sys2Proof.Machine.execHeaderEnd s
  | .reset cause => Sys2Proof.Machine.execReset cause s
  | .leaveReset cause straps => Sys2Proof.Machine.execLeaveReset cause straps s
  | .imageRead image => Sys2Proof.Machine.execImageRead image s
  | .recoveryEnd => Sys2Proof.Machine.execRecoveryEnd s
  | .joinStart => Sys2Proof.Machine.execJoinStart s
  | .joinWindowEnd => Sys2Proof.Machine.execJoinWindowEnd s
  | .carrierBoundary => Sys2Proof.Machine.execCarrierBoundary s

end Sys2Proof.Machine
end

