-- ==== Sys2Proof/Safety.lean ====
section
/-! DEFINITION. What statements about the part speak of: which parts of the state a command may change, and the invariants of the
tables, the queue, the outputs and the condition set. -/

namespace Sys2Proof.Machine

/-! ## What a command changes -/

/-- The parts of the state: the sixteen blocks of the manual's section 3, the causes of reset, the pins, the counter of the free values, and the
queue of waiting commands. -/
inductive Part where
  | rt | lc | pt | st | sp | sr | zt | ir | pd | mm | om | sm | tb | ps | cl | cr | rc | pins | draws | pending
deriving DecidableEq, Repr

/-- A part is the same in two states. -/
def State.same (s t : State) : Part → Prop
  | .rt => t.rt = s.rt
  | .lc => t.lc = s.lc
  | .pt => t.pt = s.pt
  | .st => t.st = s.st
  | .sp => t.sp = s.sp
  | .sr => t.sr = s.sr
  | .zt => t.zt = s.zt
  | .ir => t.ir = s.ir
  | .pd => t.pd = s.pd
  | .mm => t.mm = s.mm
  | .om => t.om = s.om
  | .sm => t.sm = s.sm
  | .tb => t.tb = s.tb
  | .ps => t.ps = s.ps
  | .cl => t.cl = s.cl
  | .cr => t.cr = s.cr
  | .rc => t.rc = s.rc
  | .pins => t.pins = s.pins
  | .draws => t.freeDraws = s.freeDraws
  | .pending => t.pending = s.pending

/-- Every part outside a list is the same in two states. -/
def ChangesOnly (parts : List Part) (s t : State) : Prop := ∀ p, p ∉ parts → s.same t p

/-- The parts that a change of mode, demand or program can reach: everything but the tables that messages and slots write, the supply level, the
configuration, the causes of reset, the pins, the free-value counter and the waiting commands. -/
def modeParts : List Part := [.rt, .lc, .pt, .sp, .sr, .ir, .pd, .mm, .om, .tb, .ps, .cr]

/-! ## Between commands -/

/-- No offer of STATUS or PRESENCE stands over from an earlier event. -/
def State.quiet (s : State) : Bool := !s.cr.statusDue && !s.pt.presenceDue

/-- The transmit queue has room for one more message. -/
def State.hasRoom (s : State) : Bool := s.lc.queue.length < 8

/-- A message stands in the transmit queue. -/
def State.queued (s : State) (m : Msg) : Prop := ∃ e ∈ s.lc.queue, e.msg = m

/-- A REPLY stands in the transmit queue. -/
def State.replied (s : State) (requester : Requester) (kind : RequestKind) (outcome : ReplyOutcome) (value : Option Nat) : Prop :=
  s.queued (.reply { requester := requester, kind := kind, outcome := outcome, value := value })

/-! ## The transmit queue (R26) -/

def Msg.isPresence : Msg → Bool
  | .presence _ => true
  | _ => false

def Msg.isStatus : Msg → Bool
  | .status _ => true
  | _ => false

/-- The queue holds at most eight messages in class order, at most one PRESENCE and at most one STATUS, and at most one message is in flight. -/
def LinkController.wf (lc : LinkController) : Prop :=
  lc.queue.length ≤ 8 ∧ lc.queue.Pairwise (fun a b => a.msg.cls ≤ b.msg.cls)
    ∧ lc.queue.countP (·.msg.isPresence) ≤ 1 ∧ lc.queue.countP (·.msg.isStatus) ≤ 1 ∧ lc.queue.countP (·.inFlight) ≤ 1

/-! ## The zone table (R76, R80, R81) -/

/-- A record in standby has program NONE, and the volume is 0 to 160. -/
def ZoneRecord.wf (r : ZoneRecord) : Prop := (r.standby = true → r.program = none) ∧ r.volume ≤ 160

/-- The marks keep program and standby together (R81): a marked program that names a stream has standby marked, and a marked standby that is on has
the program marked. -/
def ZoneMarks.wf (m : ZoneMarks) (r : ZoneRecord) : Prop :=
  (m.program = true → r.program.isSome = true → m.standby = true) ∧ (m.standby = true → r.standby = true → m.program = true)

/-- Fields are marked only from the take of the joining PRESENCE to the end of the join window. -/
def State.mayMarkFields (s : State) : Bool := s.pt.mode == .joining && !s.pt.joinFlag

/-- The zone table's invariant. -/
def State.zonesWf (s : State) : Prop :=
  ∀ z : Zone, (s.zt.records[z]).wf ∧ (s.zt.marks[z]).wf s.zt.records[z] ∧ (s.mayMarkFields = false → s.zt.marks[z] = ZoneMarks.clear)

/-! ## The slot table (R49 to R56) -/

/-- A slot belongs to the run that its entry names: every slot of that run holds the same stream, kind and start, and its silence count is below
8. -/
def SlotTable.runWhole (st : SlotTable) : Prop :=
  ∀ i e, st[(i : Fin 24)] = some e →
    inRun e.kind e.start.val i.val = true ∧ e.start.val + widthOf e.kind ≤ 24 ∧ e.silence < 8 ∧
      ∀ j : Fin 24, inRun e.kind e.start.val j.val = true →
        ∃ n, st[j] = some { e with silence := n }

/-- A stream holds at most one run. -/
def SlotTable.oneRun (st : SlotTable) : Prop :=
  ∀ i j a b, st[(i : Fin 24)] = some a → st[(j : Fin 24)] = some b → a.stream = b.stream → a.kind = b.kind ∧ a.start = b.start

/-- The slots that a station holds. -/
def SlotTable.heldBy (st : SlotTable) (owner : Station) : Nat := heldOutside st owner fun _ => false

/-- The slot table's invariant: each held run contiguous and as long as its kind's width, one run to a stream, and at most 8 slots to a station. -/
def SlotTable.wf (st : SlotTable) : Prop := st.runWhole ∧ st.oneRun ∧ ∀ k, st.heldBy k ≤ 8

/-- The limit of a claim or correction (R50, R56): the slots that a station holds beside the runs freed, plus the width, are at most 8. -/
def SlotTable.allows (st : SlotTable) (owner : Station) (freed : Stream → Bool) (kind : Kind) : Bool :=
  heldOutside st owner freed + widthOf kind ≤ 8

/-- Entry i of the table after the run of a stream is freed (R52). -/
def SlotTable.without (st : SlotTable) (freed : Stream → Bool) (i : Fin 24) : Option SlotEntry :=
  if (st[i]).any (fun x => freed x.stream) then none else st[i]

/-- Entry i of the table after a run is written over freed runs (R50, R56). -/
def SlotTable.placed (st : SlotTable) (freed : Stream → Bool) (stream : Stream) (kind : Kind) (start : SlotNo) (i : Fin 24) :
    Option SlotEntry :=
  if inRun kind start.val i.val then some { stream := stream, kind := kind, start := start, silence := 0 } else st.without freed i

/-- Entry i of the table after a slot without a valid header, or with one that no correction follows (R55). -/
def SlotTable.silent (st : SlotTable) (slot : SlotNo) (i : Fin 24) : Option SlotEntry :=
  match st[slot] with
  | none => st[i]
  | some e =>
    if 7 ≤ e.silence then st.without (· == e.stream) i
    else if i = slot then some { e with silence := e.silence + 1 } else st[i]

/-! ## The outputs (R125, R126, R133, R135, R136, R141) -/

/-- The record of an output is one that chapter 8 allows. -/
def OutputRecord.wf (o : OutputRecord) : Prop :=
  o.ramp ≤ 16 ∧ (o.state.sounding = false → o.ramp = 0) ∧ (o.state = .playing → o.ramp = 16)
    ∧ o.overload ≤ 4 ∧ (o.overload = 4 → o.state = .retired ∨ o.state = .off) ∧ (o.state = .retired → o.overload = 4)
    ∧ (o.state = .faulted → 1 ≤ o.recovery ∧ o.recovery ≤ 250) ∧ (o.state ≠ .faulted → o.recovery = 0)
    ∧ o.recovered ≤ 2 ∧ (o.recovered ≠ 0 → o.state = .off ∧ o.overload ≤ 3)
    ∧ (o.enabled = true → o.state = .silent ∨ o.state.sounding = true)
    ∧ o.decay ≤ 4095 ∧ (o.overload = 0 → o.decay = 0)
    ∧ 8 ≤ o.width ∧ o.width ≤ 248

def State.outputsWf (s : State) : Prop := ∀ n : OutputNo, (s.om.outputs[n]).wf

/-! ## The condition set (section 11.4) -/

/-- The column "Held while" of the table of section 11.4; in reset the MUTE line is not followed (R140, R186). -/
def State.conditionDue (s : State) : Condition → Bool
  | .configInvalid => s.cl.imageRead && !s.cl.valid
  | .clockUnlocked => s.rt.discipline.unlocked
  | .supplyLow => s.sm == .low
  | .muteLine => !s.inReset && s.pins.mute
  | .outputFaulted n => s.om.outputs[n].state == .faulted
  | .outputRetired n => s.om.outputs[n].state == .retired || (s.om.outputs[n].state == .off && s.om.outputs[n].overload == 4)
  | .roleDuplicate n => s.om.outputs[n].roleStatus == .duplicate
  | .streamNoSlot src => (s.sp.get src).state == .noSlot
  | .programLost => s.sr.state == .lost
  | .decodeConceal => s.pd.state == .conceal
  | .inputUnsupported id => (s.ir.get id).state == .unsupported

/-- Every entry of the condition set is held exactly while its owner's state calls for it, and in reset the set is the one after reset (R182, R186). -/
def State.conditionsWf (s : State) : Prop :=
  (∀ k, s.cr.holds k = s.conditionDue k) ∧ (s.inReset = true → s.cr.held = Conditions.reset.held)

/-! ## Clock errors (R10, R16) -/

/-- The clock error of the mark of a round begin where the mark is evaluated; none at a re-base and in FREE. -/
def State.markError (s : State) (r : RoundBegin) : Option Int :=
  s.rt.evaluated s.own (readMark r.sender r.body) (s.rt.interval s.own (readMark r.sender r.body) r.elapsed)

/-- The takeover timer of the station runs, and no mark of its own is on the link. -/
def State.timerRuns (s : State) : Bool :=
  s.joined && s.mayMark && !s.rt.isSender && s.rt.takeover != .stopped && s.rt.outgoing.isNone

/-- A take that the modes follow (R41): ZONE SET, ZONE STATE, CLAIM or RELEASE. -/
def movesMode : Instr → Bool
  | .zoneSet _ _ | .zoneState _ _ | .claim _ _ | .release _ _ => true
  | _ => false

/-- The first test of R152 or R166 that a request fails is answered with its outcome; the requester's zone is the one carried where it carries one
in range (the log's row 10 leaves the other open). -/
def State.refused (s : State) (sender : Station) (payload : List Byte) (kind : RequestKind) (outcome : ReplyOutcome) : Prop :=
  ∃ z, (∀ c, requesterZone payload = some c → z = c) ∧ s.replied { station := sender, zone := z } kind outcome none

/-- A position of the control window leaves no content set aside (R27). -/
def LinkController.nothingDeferred (lc : LinkController) : Bool := lc.deferredPresence.isNone && lc.deferredStatus.isNone

/-! ## The receiver (R67 to R73) -/

/-- A change of D (R73): no entry is presented and the decoder is handed nothing; the ring of a receiver that is not IDLE is dropped, and it fills
again with PROGRAM_LOST clear. -/
def State.dropsRing (s t : State) : Prop :=
  t.mm.frame = Frame.silence ∧ (s.pt.mode ≠ .joining → t.pd = s.pd)
    ∧ (if s.sr.state = .idle then t.sr = { s.sr with gathered := [] }
      else
        t.sr = { s.sr with ring := emptyRing, watchdog := 0, state := .filling, lead := none, gathered := [] }
          ∧ t.cr.holds .programLost = false)

/-- What an entry received hands on (R70): the samples of a PCM2 entry, or silence where it is MUTED, and the block of a PACKED one, or a muted
block. -/
def State.handsOn (s t : State) (entry : RingEntry) : Prop :=
  t.sr.programKind = entry.kind
    ∧ (entry.kind = some .pcm2 →
      t.sr.lastPairs = (if entry.status = .valid then pairsOf entry else silentPairs)
        ∧ t.mm.frame = pcmFrame s.ownRecord.listening t.sr.lastPairs)
    ∧ (entry.kind = some .packed → t.sr.lastPairs = s.sr.lastPairs
      ∧ (s.sr.programKind = some .packed →
        let handed := if entry.status = .valid then Handed.block (blockOf entry) else .muted
        t.mm.frame = (s.decode handed).mm.frame ∧ (s.pt.mode ≠ .joining → t.pd = (s.decode handed).pd)))

/-- A MISSING round in RUNNING (R70, R71): the previous round of a PCM2 program once and then silence, a bad block of a PACKED one, and one more
on the watchdog count, which at the limit brings LOST, silence and PROGRAM_LOST. -/
def State.missesRound (s t : State) : Prop :=
  let repeated := if s.sr.watchdog = 0 then s.sr.lastPairs else silentPairs
  let fires := s.cl.values.watchdogLimit ≤ s.sr.watchdog + 1
  t.sr =
    { s.sr with
      state := if fires then .lost else .running
      watchdog := if fires then 0 else s.sr.watchdog + 1
      lastPairs := if s.sr.programKind = some .pcm2 then repeated else s.sr.lastPairs
      gathered := [] }
    ∧ (s.pt.mode ≠ .joining → t.pd = if s.sr.programKind = some .packed then (s.decode (.block none)).pd else s.pd)
    ∧ (if fires then t.mm.frame = Frame.silence ∧ t.cr.holds .programLost = true
      else t.mm.frame =
        (match s.sr.programKind with
        | some .pcm2 => pcmFrame s.ownRecord.listening repeated
        | some .packed => (s.decode (.block none)).mm.frame
        | none => Frame.silence))

/-- The presentation of the entry for a capture round (R69, R70): in RUNNING it is handed on, or counts as MISSING where the ring does not hold the
round; in FILLING the lead brings RUNNING in LOCKED or HOLDOVER; otherwise silence, and a lead whose round has come stops being the lead. The entry
received leads unless a lead of LOST waits for a later presentation. -/
def State.presentsRound (s t : State) (round : RoundNo) : Prop :=
  let entry := s.sr.ring[ringIndex round]
  let received := entry.round = some round ∧ entry.status ≠ .missing
  let leads := (∀ r, s.sr.lead = some r → roundBefore round r = false) ∧ (t.rt.discipline = .locked ∨ t.rt.discipline = .holdover)
  if received ∧ (s.sr.state = .running ∨ s.sr.state = .filling ∧ leads) then
    s.handsOn t entry
      ∧ t.sr =
        { s.sr with
          state := .running
          watchdog := 0
          lead := if s.sr.state = .filling then none else s.sr.lead
          programKind := t.sr.programKind
          lastPairs := t.sr.lastPairs
          gathered := [] }
  else if s.sr.state = .running then s.missesRound t
  else
    t.mm.frame = Frame.silence ∧ (s.pt.mode ≠ .joining → t.pd = s.pd)
      ∧ t.sr = { s.sr with lead := if s.sr.state = .filling then s.sr.lead.filter (roundBefore round) else s.sr.lead, gathered := [] }

/-- What follows from the own zone's program at a take (R67, R72): with no output in RAMP_UP, PLAYING or RAMP_DOWN a changed program is switched to
at once, and otherwise it is the held target, switched to where the take itself brings the last output down; a change back to the subscription drops
the target. A switch drops the ring, and PROGRAM_LOST is clear. No run holds a target with no output in these states; there an unchanged program
may do either. -/
def State.followsProgram (s t : State) : Prop :=
  let program := t.ownRecord.program
  let target :=
    if program = s.ownRecord.program then s.sr.target else if program = s.sr.subscription then none else some program
  match target with
  | none => t.sr = { s.sr with target := none }
  | some p =>
    let holds := t.sr = { s.sr with target := some p }
    let switches :=
      t.sr =
        { subscription := p, target := none, ring := emptyRing, watchdog := 0, programKind := none,
          state := if p.isSome = true then .filling else .idle, lead := none, lastPairs := [], gathered := [] }
        ∧ t.cr.holds .programLost = false
    if ∃ n : OutputNo, s.om.outputs[n].state.sounding = true then
      if ∃ n : OutputNo, t.om.outputs[n].state.sounding = true then holds else switches
    else if program = s.ownRecord.program then holds ∨ switches
    else switches

/-! ## The preset store (R168, R169) -/

/-- The engine takes an entry from an empty queue: it programs the record given, and in a full sector (none) the entry waits for a compaction, which
begins with the erase of the spare. -/
def State.programs (s t : State) (entry : StoreEntry) (programming : Option Programming) : Prop :=
  t.ps.index = s.ps.index
    ∧ (match programming with
      | some p =>
        t.ps.current = some p ∧ t.ps.engine = .running .programming ∧ t.ps.queue = []
          ∧ t.ps.sectors = markWriting s.ps.sectors p.slot ∧ t.ps.nextSequence = s.ps.nextSequence + 1
      | none =>
        t.ps.current = s.ps.current ∧ t.ps.engine = .running .erasing ∧ t.ps.queue = [entry]
          ∧ (∃ c, t.ps.compaction = some c ∧ c.next = .erasing) ∧ t.ps.nextSequence = s.ps.nextSequence)

/-! ## The tuner (R145, R150, R157, R160) -/

/-- The holder list holds each zone at most once, and exactly the zones whose record names this tuner's stream; without a tuner, and before the
entry to JOINING, it is empty. -/
def State.holdersWf (s : State) : Prop :=
  s.tb.holders.Nodup
    ∧ (if s.cl.values.tunerFitted = true then ∀ z : Zone, z ∈ s.tb.holders ↔ s.zt.records[z].program = some (s.ownStream .t)
      else s.tb.holders = [])
    ∧ (s.cl.joined = false → ∀ z : Zone, s.zt.records[z].program = none)
    ∧ (s.cl.joined = true → s.cl.imageRead = true ∧ s.inReset = false)

/-- An operation is a SCAN of a band. -/
def Tuner.scans (tb : Tuner) (b : Band) : Bool := tb.op.any fun op => op.kind == .scan && op.band == b

/-- A station list that an abort leaves: its entries kept, and PARTIAL where a SCAN of its band was in flight (R153, R154, R157). -/
def Tuner.listAborted (tb : Tuner) (b : Band) : StationList :=
  { tb.list b with complete := (tb.list b).complete && !tb.scans b }

/-- A station list: at most 40 entries in strictly ascending frequency. -/
def StationList.wf (l : StationList) : Prop := l.entries.length ≤ 40 ∧ l.entries.Pairwise (fun a b => a.freq < b.freq)

end Sys2Proof.Machine
end

