-- ==== Sys2Proof/Certificates/Slice0/Obligations.lean ====
section
/-! DEFINITION. The statements for the provers. -/

open Sys2Proof Sys2Proof.Machine

/-! ## Steps -/

/-- A step takes the command at the front of the queue and runs it on the state with the queue's rest. With no command waiting the part idles, but
that the first position of the control window opens where the mark of the round is on the link: the head of the transmit queue of a station that
contends is in flight from there. What a step does with no command waiting is the model's choice (the log's rows 3 and 5). -/
def Obligations.StepRunsTheFrontCommand : Prop :=
  (∀ (c : Instr) (rest : List Instr) (s : State), step { s with pending := c :: rest } = exec c { s with pending := rest })
  ∧ ∀ s : State, s.pending = [] →
    ∃ t, step s = .next t ∧ ChangesOnly [.lc] s t ∧ t.lc.markOnLink = false ∧ t.lc.queue.map (·.msg) = s.lc.queue.map (·.msg)
      ∧ (s.lc.markOnLink = false → t = s)
      ∧ (∀ e rest, s.lc.markOnLink = true → s.lc.inFlight = none → s.lc.windowOpen = true → s.lc.positions = 0 → s.lc.sendFlag = false →
          s.lc.queue = e :: rest → t.lc.queue = { e with inFlight := true } :: rest)

/-- Every command completes in every state, and none touches the commands that wait behind it. That a command whose event cannot occur in the state
completes too, and leaves the state, is the model's choice (the log's row 2). -/
def Obligations.EveryCommandCompletes : Prop :=
  ∀ (c : Instr) (s : State), ∃ t, exec c s = .next t ∧ t.pending = s.pending

/-! ## Rounds and the sample clock (chapter 1) -/

/-- A round begin reads a good mark's sender, round number and D, advances a known round number at a damaged mark, takes the capture, and ages every
peer entry; the send flag is clear, and no message is in flight until the mark ends. Where no target is held, a changed D drops the ring (R73), and
otherwise the ring entry for m-D is presented (R69, R70). It leaves the slot table, the zone records, the supply level, the configuration and the
pins. What the interval is for an own mark, and which entry leads after LOST, is the model's choice (the log's rows 8, 21 and
58). -/
def Obligations.RoundBeginReadsTheMark : Prop :=
  ∀ (r : RoundBegin) (s : State), s.joined = true →
    ∃ t, exec (.roundBegin r) s = .next t
      ∧ (match readMark r.sender r.body with
        | some m =>
          t.rt.currentSender = some m.sender ∧ t.rt.roundNumber = some m.number
            ∧ t.rt.adoptedD = (if 2 ≤ m.d ∧ m.d ≤ 6 then m.d else s.rt.adoptedD)
        | none =>
          t.rt.currentSender = s.rt.currentSender ∧ t.rt.roundNumber = s.rt.roundNumber.map (· + 1)
            ∧ t.rt.adoptedD = s.rt.adoptedD)
      ∧ t.rt.prevCapture = some t.rt.counter
      ∧ t.rt.counter = s.rt.counter + BitVec.ofNat 32 (s.rt.interval s.own (readMark r.sender r.body) r.elapsed)
      ∧ t.rt.roundBegun = true ∧ t.rt.outgoing = none ∧ t.rt.lostAsSender = false
      ∧ t.lc.sendFlag = false ∧ t.lc.windowOpen = true ∧ t.lc.positions = 0 ∧ (∀ e ∈ t.lc.queue, e.inFlight = false)
      ∧ (∀ k : Station, t.pt.entries[k] = (s.pt.entries[k]).bind fun e =>
          if 191 ≤ e.silence then none else some { e with silence := e.silence + 1 })
      ∧ (s.sr.target = none →
        if t.rt.adoptedD ≠ s.rt.adoptedD then s.dropsRing t
        else
          match t.rt.roundNumber with
          | some m => s.presentsRound t (m - BitVec.ofNat 16 t.rt.adoptedD)
          | none => t.mm.frame = Frame.silence ∧ t.sr = { s.sr with gathered := [] })
      ∧ ChangesOnly (modeParts ++ [.zt, .draws]) s t ∧ t.zt.records = s.zt.records

/-- Which marks are evaluated, with what error, and what an evaluated mark does to the trim (R10, R11, R16): not a damaged mark, one of a new sender,
this station's own takeover mark whoever the current sender is, one after more than 60 samples, or one to which this station, while the sender, has
lost arbitration. What the interval is for an own mark, and how a station knows its own mark, is the model's choice (the log's rows 8 and 29). -/
def Obligations.EvaluatedMarksTrimTheClock : Prop :=
  ∀ (r : RoundBegin) (s : State), s.joined = true →
    (s.markError r = none ↔
      s.rt.discipline = .free ∨ s.rt.prevCapture = none
        ∨ (∀ m, readMark r.sender r.body = some m → s.rt.currentSender ≠ some m.sender) ∨ s.rt.lostAsSender = true
        ∨ ((∃ o, s.rt.outgoing = some o ∧ o.periodic = false) ∧ ∀ m, readMark r.sender r.body = some m → m.sender = s.own)
        ∨ 15360 < s.rt.interval s.own (readMark r.sender r.body) r.elapsed)
    ∧ (∀ e, s.markError r = some e → e = (s.rt.interval s.own (readMark r.sender r.body) r.elapsed : Int) - 12288)
    ∧ ∃ t, exec (.roundBegin r) s = .next t
      ∧ t.rt.trim = (match s.markError r with
        | some e => max (-256) (min 256 (s.rt.trim + Int.tdiv e 2))
        | none => s.rt.trim)

/-- ACQUIRING (R13): the good-mark run, LOCKED at 16, and the run set to 0 by a mark that is not good, a re-base or a takeover timer expiry. -/
def Obligations.AcquiringCountsGoodMarks : Prop :=
  ∀ s : State, s.joined = true → s.rt.discipline = .acquiring →
    (∀ r : RoundBegin, ∃ t, exec (.roundBegin r) s = .next t ∧
      (match s.markError r with
      | some e =>
        if e.natAbs ≤ 64 then
          if s.rt.goodRun + 1 < 16 then t.rt.discipline = .acquiring ∧ t.rt.goodRun = s.rt.goodRun + 1
          else t.rt.discipline = .locked ∧ t.rt.goodRun = 0
        else t.rt.discipline = .acquiring ∧ t.rt.goodRun = 0
      | none => t.rt.discipline = .acquiring ∧ t.rt.goodRun = 0))
    ∧ (s.timerRuns = true →
      ∃ t, exec (.takeoverTimerExpiry .quiet) s = .next t ∧ t.rt.discipline = .acquiring ∧ t.rt.goodRun = 0)

/-- LOCKED (R14): a large error leads to ACQUIRING, any other evaluated mark keeps LOCKED, and a re-base or a takeover timer expiry leads to
HOLDOVER with both counts at 0. -/
def Obligations.LockedHoldsOrMoves : Prop :=
  ∀ s : State, s.joined = true → s.rt.discipline = .locked →
    (∀ r : RoundBegin, ∃ t, exec (.roundBegin r) s = .next t ∧
      (match s.markError r with
      | some e =>
        if 512 < e.natAbs then t.rt.discipline = .acquiring ∧ t.rt.goodRun = 0 else t.rt.discipline = .locked
      | none => t.rt.discipline = .holdover ∧ t.rt.goodRun = 0 ∧ t.rt.holdover = 0))
    ∧ (s.timerRuns = true →
      ∃ t, exec (.takeoverTimerExpiry .quiet) s = .next t
        ∧ t.rt.discipline = .holdover ∧ t.rt.goodRun = 0 ∧ t.rt.holdover = 0)

/-- HOLDOVER at a round begin (R15): four good marks lead to LOCKED, 32 rounds to FREE, and LOCKED where both come together. -/
def Obligations.HoldoverEnds : Prop :=
  ∀ (r : RoundBegin) (s : State), s.joined = true → s.rt.discipline = .holdover →
    ∃ t, exec (.roundBegin r) s = .next t ∧
      let run := match s.markError r with
        | some e => if e.natAbs ≤ 64 then s.rt.goodRun + 1 else 0
        | none => 0
      let count := if s.rt.holdoverFresh = true then s.rt.holdover else s.rt.holdover + 1
      if 4 ≤ run then t.rt.discipline = .locked ∧ t.rt.goodRun = 0 ∧ t.rt.holdover = 0
      else if 32 ≤ count then t.rt.discipline = .free ∧ t.rt.goodRun = 0 ∧ t.rt.holdover = 0
      else t.rt.discipline = .holdover ∧ t.rt.goodRun = run ∧ t.rt.holdover = count

/-- The sender's periodic mark (R3, R4, R5, R7, R9, R16): it goes out on a quiet link and against a higher station, and not into an opening or against
a lower one, which is arbitration lost while the sender; nothing else changes. -/
def Obligations.SenderSendsItsMark : Prop :=
  ∀ (link : LinkAtSend) (s : State), s.joined = true → s.mayMark = true → s.rt.isSender = true → s.rt.outgoing = none →
    exec (.senderMarkDue link) s = .next
      (if (match link with
          | .quiet => true
          | .opening => false
          | .contended other => decide (s.own ≤ other)) = true then
        { s with rt := { s.rt with outgoing := some ⟨(s.rt.roundNumber.map (· + 1)).getD 0, s.cl.values.d, true⟩ } }
      else if link = .opening then s
      else { s with rt := { s.rt with lostAsSender := true } })

/-- The takeover mark (R3, R5, R6, R12 to R15): the station puts it on the link, becomes the sender and stops its timer; only the clock and the go
condition of the outputs are concerned. Where the link carries another mark nothing happens (R7, R9). -/
def Obligations.TakeoverSendsAMark : Prop :=
  ∀ (link : LinkAtSend) (s : State), s.timerRuns = true → s.quiet = true →
    ∃ t, exec (.takeoverTimerExpiry link) s = .next t ∧
      (if (match link with
          | .quiet => true
          | .opening => false
          | .contended other => decide (s.own ≤ other)) = true then
        t.rt.isSender = true ∧ t.rt.takeover = .stopped ∧ t.rt.roundNumber = s.rt.roundNumber
          ∧ t.rt.outgoing = some ⟨(s.rt.roundNumber.map (· + 1)).getD 0, s.cl.values.d, false⟩
          ∧ ChangesOnly [.rt, .om] s t
      else t = s)

/-- The end of HOLDOVER by its count (R15, R17, R130): FREE with both counts at 0, CLOCK_UNLOCKED held, and no output left sounding. That the
command performs a timer's last step alone is the model's choice (the log's row 1). -/
def Obligations.HoldoverExpiryCuts : Prop :=
  ∀ s : State, s.joined = true → s.rt.discipline = .holdover → 31 ≤ s.rt.holdover → s.rt.holdoverFresh = false →
    ∃ t, exec .holdoverExpiry s = .next t
      ∧ t.rt = { s.rt with discipline := .free, goodRun := 0, holdover := 0 }
      ∧ t.cr.holds .clockUnlocked = true
      ∧ (∀ n : OutputNo, t.om.outputs[n].state.sounding = false)
      ∧ ChangesOnly [.rt, .om, .sr, .cr, .pd, .mm, .lc, .pt] s t ∧ t.pt.entries = s.pt.entries ∧ t.pt.mode = s.pt.mode

/-! ## Control traffic (chapter 2) -/

/-- A voided message (R22, R23, R24): it acts on no block, an own message keeps its place and is not sent again in the round, and another station's
body is voided by this station where its form is bad. That the first position opens, at the latest, with the take or void that ends it is the
model's choice (the log's row 5). -/
def Obligations.VoidedMessageActsNowhere : Prop :=
  ∀ (field : ArbField) (received : List Byte) (s : State), s.takes = true → s.quiet = true →
    ∃ t, exec (.messageVoided field received) s = .next t
      ∧ ChangesOnly [.lc] s t
      ∧ t.lc.voidDriven = (!s.endMark.lc.isOwnPosition s.own field && bodyIsVoid received)
      ∧ (s.endMark.lc.isOwnPosition s.own field = true → t.lc.sendFlag = true)
      ∧ (s.lc.nothingDeferred = true → t.lc.queue.map (·.msg) = s.lc.queue.map (·.msg))

/-- A message that no block acts on (R24, R30, R31, R32, R177): a reply kind, an unknown kind, or a request that names another station. Its sender has
been heard, an own message leaves the queue, and nothing else is touched. That the first position opens, at the latest, with the take that ends it is
the model's choice (the log's row 5). -/
def Obligations.IgnoredMessagesAreOnlyHeard : Prop :=
  ∀ (c : Instr) (field : ArbField) (k : Station) (p : List Byte) (code : BitVec 5) (s : State), s.takes = true → s.quiet = true →
    ((c, field) ∈ [(Instr.reply k p, ⟨3, k⟩), (.listPage k p, ⟨3, k⟩), (.presetData k p, ⟨3, k⟩), (.status k p, ⟨3, k⟩)]
      ∨ c = .unknownKind field code ∧ field.sender = k
      ∨ addressedTo s.own p = false ∧ (c, field) ∈
        [(Instr.roleMap k p, ⟨1, k⟩), (.tune k p, ⟨2, k⟩), (.seek k p, ⟨2, k⟩), (.scan k p, ⟨2, k⟩), (.presetRecall k p, ⟨2, k⟩),
          (.presetStore k p, ⟨2, k⟩), (.presetClear k p, ⟨2, k⟩), (.presetRead k p, ⟨2, k⟩), (.listRead k p, ⟨2, k⟩),
          (.statusQuery k p, ⟨2, k⟩)]) →
    ∃ t, exec c s = .next t
      ∧ t.pt = { s.pt with entries := s.pt.entries.set k ((s.pt.entries[k]).map fun e => { e with silence := 0 }) }
      ∧ (s.endMark.lc.isOwnPosition s.own field = true → t.lc.sendFlag = true)
      ∧ (s.lc.nothingDeferred = true →
          t.lc.queue.map (·.msg) =
            (if s.endMark.lc.isOwnPosition s.own field = true then s.endMark.lc.queue.filter (fun e => !e.inFlight)
              else s.lc.queue).map (·.msg))
      ∧ ChangesOnly [.lc, .pt] s t

/-- An offer to a full queue (R28): a CLAIM or RELEASE displaces the youngest class-3 message that is not in flight, the last such in the queue; every
other message stays, in its order, and the new one stands at the end of class 0. Every other offer is discarded. -/
def Obligations.FullQueueDiscardsOrDisplaces : Prop :=
  ∀ (lc : LinkController) (m : Msg), 8 ≤ lc.queue.length → lc.queue.any (fun e => coalesces e.msg m) = false →
    (m.cls ≠ 0 → lc.offer m = lc)
    ∧ (m.cls = 0 → (∀ e ∈ lc.queue, e.msg.cls = 3 → e.inFlight = true) → lc.offer m = lc)
    ∧ (m.cls = 0 → (∃ e ∈ lc.queue, e.msg.cls = 3 ∧ e.inFlight = false) →
      (lc.offer m).queue.length = lc.queue.length ∧ (∃ e ∈ (lc.offer m).queue, e.msg = m ∧ e.inFlight = false))
    ∧ (∀ before lost behind zeros others, m.cls = 0 → lc.queue = before ++ lost :: behind → lost.msg.cls = 3 → lost.inFlight = false →
      (∀ e ∈ behind, e.msg.cls = 3 → e.inFlight = true) → before ++ behind = zeros ++ others → (∀ e ∈ zeros, e.msg.cls = 0) →
      (∀ e ∈ others, e.msg.cls ≠ 0) →
      lc.offer m = { lc with queue := zeros ++ { msg := m, inFlight := false } :: others })

/-- An offer of PRESENCE or STATUS while one is pending (R27): the content is replaced in place, the message keeping its position and its class and
every other entry standing as it was, or set aside while the message is in flight; the queue keeps its length. -/
def Obligations.ReportsCoalesce : Prop :=
  ∀ (lc : LinkController) (before behind : List QueueEntry) (e : QueueEntry) (m : Msg), lc.wf → lc.queue = before ++ e :: behind →
    coalesces e.msg m = true →
    (lc.offer m).queue.length = lc.queue.length
    ∧ (e.inFlight = false → lc.offer m = { lc with queue := before ++ { msg := m, inFlight := false } :: behind } ∧ e.msg.cls = m.cls)
    ∧ (e.inFlight = true → (lc.offer m).queue = lc.queue ∧ (lc.offer m).deferredFor m = some m)

/-- The transmit queue keeps its form at every step (R26). -/
def Obligations.EveryStepKeepsTheQueue : Prop :=
  ∀ s t : State, s.lc.wf → step s = .next t → t.lc.wf

/-! ## Peers and station modes (chapter 3) -/

/-- The peer table (R35, R36, R37): the content of a PRESENCE replaces the sender's entry, content out of range leaves the entry with its silence
count at 0 and every table and output as it stands, and a counted absence removes the entry; where an entry is replaced or removed the holders of
the own zone are derived. The slot table, the zone records, the tuner and the mode stand. That PEER_ABSENCE performs the last step of a count alone,
and that the bits that the layout of PRESENCE does not name are ignored, is the model's choice (the log's rows 1 and 67). -/
def Obligations.PeersEnterAndLeave : Prop :=
  ∀ (k : Station) (s : State),
    (∀ p, s.takes = true →
      ∃ t, exec (.presence k p) s = .next t
        ∧ (match presenceFields p with
          | some c =>
            t.pt.entries = s.pt.entries.set k (some { zone := c.zone, mode := c.mode, outputs := c.outputs, silence := 0 })
              ∧ ∀ role, t.zt.holder role = holderOf t.pt.entries s.ownZone role
          | none =>
            t.pt.entries = s.pt.entries.set k ((s.pt.entries[k]).map fun e => { e with silence := 0 })
              ∧ t.zt = s.zt ∧ t.mm = s.mm ∧ t.om = s.om)
        ∧ t.zt.records = s.zt.records ∧ t.zt.marks = s.zt.marks ∧ t.pt.mode = s.pt.mode
        ∧ ChangesOnly [.lc, .pt, .zt, .mm, .om, .cr] s t)
    ∧ (∀ e, s.joined = true → s.pt.entries[k] = some e → 191 ≤ e.silence →
      ∃ t, exec (.peerAbsence k) s = .next t
        ∧ t.pt.entries = s.pt.entries.set k none
        ∧ (∀ role, t.zt.holder role = holderOf t.pt.entries s.ownZone role)
        ∧ t.zt.records = s.zt.records ∧ t.zt.marks = s.zt.marks ∧ t.pt.mode = s.pt.mode
        ∧ ChangesOnly [.lc, .pt, .zt, .mm, .om, .cr] s t)

/-- The answer to a joining PRESENCE of station j (R189): this station offers a ZONE STATE of its four records exactly where it is not j, is not
JOINING, and is the lowest station other than j whose entry is present and not JOINING. That a flagged PRESENCE is answered even where its content
is out of range is the model's reading (the log's row 32). -/
def Obligations.JoiningPresenceIsAnswered : Prop :=
  ∀ (j : Station) (p : List Byte) (s : State), s.takes = true → joiningFlag p = true → s.hasRoom = true →
    (∀ e ∈ s.lc.queue, ∀ v, e.msg ≠ .zoneState v) →
    ∃ t, exec (.presence j p) s = .next t
      ∧ ((∃ v, t.queued (.zoneState v)) ↔
          s.own ≠ j ∧ s.pt.mode ≠ .joining ∧ s.qualifies s.own = true ∧ ∀ k, k < s.own → k ≠ j → s.qualifies k = false)
      ∧ ∀ v, t.queued (.zoneState v) → v = s.zt.records

/-- The mode after the join window (R40, R41): at every taken ZONE SET, ZONE STATE, CLAIM and RELEASE it is the one that the tables, as the take
leaves them, call for. That the mode is derived at every such take is the model's choice (the log's row 39). -/
def Obligations.ModeFollowsTheTables : Prop :=
  ∀ (c : Instr) (s : State), movesMode c = true → s.takes = true → s.pt.mode ≠ .joining →
    ∃ t, exec c s = .next t
      ∧ t.pt.mode =
        (if t.ownRecord.standby = false then .active
        else if (t.demanded .a || t.demanded .b || t.demanded .t || ownsRun t.st t.own) = true then .serving
        else .standby)

/-- Entry to STANDBY by a take (R45): every output OFF with its stage disabled, the inputs in NO_SIGNAL, the decoder and the tuner OFF with no
operation, no takeover timer, and the station not the sender; the overload counts and the tuner's channel and lists are kept, a SCAN in flight leaving
its list PARTIAL. That the mode is derived at every such take is the model's choice (the log's row 39). -/
def Obligations.StandbyPowersDown : Prop :=
  ∀ (c : Instr) (s : State), movesMode c = true → s.takes = true → s.pt.mode ≠ .joining → s.pt.mode ≠ .standby →
    ∃ t, exec c s = .next t
      ∧ (t.pt.mode = .standby →
          (∀ n : OutputNo, t.om.outputs[n].state = .off ∧ t.om.outputs[n].enabled = false ∧ t.om.outputs[n].ramp = 0
            ∧ t.om.outputs[n].recovery = 0 ∧ t.om.outputs[n].overload = s.om.outputs[n].overload
            ∧ t.cr.holds (.outputFaulted n) = false)
          ∧ t.ir.recA.state = .noSignal ∧ t.ir.recB.state = .noSignal ∧ t.pd.state = .off
          ∧ t.tb.state = .off ∧ t.tb.op = none ∧ t.tb.band = s.tb.band ∧ t.tb.freq = s.tb.freq
          ∧ (∀ b, (t.tb.list b).entries = (s.tb.list b).entries
            ∧ (t.tb.list b).complete =
              ((s.tb.list b).complete && !(s.tb.op.any fun op => op.kind == .scan && op.band == b)))
          ∧ t.rt.takeover = .stopped ∧ t.rt.isSender = false)

/-! ## Slots and streams (chapter 4) -/

/-- A CLAIM (R50): the stream is the sender's, the run lies in slots 0 to 23 over no slot of another run, and the sender's other slots and the
width are at most 8: then the run is written with silence counts of 0 and the stream's former run freed; otherwise the table stands. -/
def Obligations.ClaimsAreTested : Prop :=
  ∀ (k : Station) (p : List Byte) (s : State), s.takes = true →
    ∃ t, exec (.claim k p) s = .next t
      ∧ (match claimFields p with
        | some (stream, kind, start) =>
          ∀ i : Fin 24, t.st[i] =
            if stream.station = k ∧ start.val + widthOf kind ≤ 24
                ∧ (∀ j : Fin 24, inRun kind start.val j.val = true → (s.st[j]).all (·.stream == stream) = true)
                ∧ SlotTable.allows s.st k (· == stream) kind = true then
              SlotTable.placed s.st (· == stream) stream kind start i
            else s.st[i]
        | none => t.st = s.st)
      ∧ (∀ e, t.pt.entries[k] = some e → e.silence = 0)
      ∧ ChangesOnly (.st :: modeParts) s t

/-- A RELEASE (R52): the run of a stream that belongs to the sender is freed, and nothing else; the message is taken, and the station sends in no
slot that is free. -/
def Obligations.ReleasesFreeRuns : Prop :=
  ∀ (k : Station) (p : List Byte) (s : State), s.takes = true →
    ∃ t, exec (.release k p) s = .next t
      ∧ (∀ i : Fin 24, t.st[i] =
          match releaseField p with
          | some stream => if stream.station = k then SlotTable.without s.st (· == stream) i else s.st[i]
          | none => s.st[i])
      ∧ (∀ i : Fin 24, t.st[i] = none → t.sends i = none)
      ∧ (∀ e, t.pt.entries[k] = some e → e.silence = 0)
      ∧ (s.lc.isOwnPosition s.own ⟨0, k⟩ = true → t.lc.sendFlag = true)
      ∧ ChangesOnly (.st :: modeParts) s t

/-- The end of a slot (R55, R56): an agreeing header sets the entry's silence count to 0; a disagreeing one writes the run that it implies, where
the owner's limit allows, over the runs it overlaps and the stream's other run; any other slot counts as silent. That SLOT_EXPIRY performs the last
step of a count alone is the model's choice (the log's row 1). -/
def Obligations.SlotsAreJudged : Prop :=
  ∀ (slot : SlotNo) (s : State), s.takes = true →
    (∀ heard, ∃ t, exec (.slotEnd slot heard) s = .next t
      ∧ (∀ i : Fin 24, t.st[i] =
          match validHeader s.rt.roundNumber slot heard with
          | none => SlotTable.silent s.st slot i
          | some (h, _) =>
            if (s.st[slot]).any (fun e => e.stream == h.stream && e.kind == h.kind && e.start.val + h.part == slot.val) = true then
              if i = slot then (s.st[slot]).map (fun e => { e with silence := 0 }) else s.st[i]
            else if SlotTable.allows s.st h.stream.station (freedByCorrection s.st slot h) h.kind = true then
              SlotTable.placed s.st (freedByCorrection s.st slot h) h.stream h.kind (impliedStart slot h) i
            else SlotTable.silent s.st slot i)
      ∧ ChangesOnly ([.st, .draws] ++ modeParts) s t)
    ∧ (∀ e, s.st[slot] = some e → 7 ≤ e.silence →
        ∃ t, exec (.slotExpiry slot) s = .next t
          ∧ (∀ i : Fin 24, t.st[i] = SlotTable.without s.st (· == e.stream) i)
          ∧ ChangesOnly (.st :: modeParts) s t)

/-- The bytes sent (R40, R65, R66): after the join window the station sends in the slots that its table assigns to one of its streams (T is one only
where a tuner is fitted), with the stream, kind, part and capture round, muted silence where the record is not PUBLISHED or the capture is not
usable or does not fit the run. In no other slot does it send. That a sent slot is held in State, that the table, the record and the capture are
read at the end of the slot, and that the data of an unmuted slot without a block is a free value, is the model's choice (the log's rows 37, 52 and
64). -/
def Obligations.OwnSlotsAreSent : Prop :=
  ∀ (slot : SlotNo) (heard : List Byte) (s : State), s.takes = true →
    ∃ t, exec (.slotEnd slot heard) s = .next t
      ∧ (∀ e, s.st[slot] = some e → e.stream.station = s.own → (e.stream.source = .t → s.cl.values.tunerFitted = true) →
          s.pt.mode ≠ .joining →
          ∃ h data, t.sp.sentSlot = some { slot := slot, bytes := encodeSlot h data }
            ∧ h.stream = e.stream ∧ h.kind = e.kind ∧ h.part = slot.val - e.start.val
            ∧ (∀ m, s.rt.roundNumber = some m → h.capture = (m - 1).setWidth 8)
            ∧ (let r := s.sp.get e.stream.source
              if r.state = .published ∧ r.capture.usable = true ∧ r.capture.content.fits e.kind = true then
                h.muted = false ∧ data = r.capture.content.data h.part s.freeDraws
              else h.muted = true ∧ data = List.replicate 144 0))
      ∧ ((∀ e, s.st[slot] = some e →
            e.stream.station ≠ s.own ∨ e.stream.source = .t ∧ s.cl.values.tunerFitted = false ∨ s.pt.mode = .joining) →
          t.sp.sentSlot = s.sp.sentSlot)

/-- The ring (R68, R71): each slot of the subscribed stream's run is noted with whether its header is valid and names the stream with the table's kind
and the right part; at the end of the audio slots the entry of the capture round is written at its place from what the slots brought, VALID, MUTED
or MISSING, and in LOST an entry that is not MISSING brings FILLING with that entry as lead and clears PROGRAM_LOST. Any other write leaves a lead
that the ring still holds, but for an older entry received, which takes its place (R69). Where the judgement of the slot releases a held target, the
ring is that of the new program. That the table is read before the judgement of the slot, and how a lead goes with its entry, is the model's choice
(the log's rows 20, 21 and 58). -/
def Obligations.RingIsWritten : Prop :=
  ∀ (slot : SlotNo) (heard : List Byte) (stream : Stream) (m : RoundNo) (s : State), s.takes = true → s.sr.subscription = some stream →
    s.rt.roundNumber = some m →
    ∃ t brought, exec (.slotEnd slot heard) s = .next t
      ∧ brought = s.sr.gathered ++
        (match s.st[slot] with
        | none => []
        | some e =>
          if e.stream = stream then
            [match validHeader (some m) slot heard with
            | none =>
              { kind := e.kind, start := e.start, part := slot.val - e.start.val, good := false, muted := false, noBlock := false, data := [] }
            | some (h, data) =>
              { kind := e.kind, start := e.start, part := slot.val - e.start.val,
                good := decide (h.stream = stream ∧ h.kind = e.kind ∧ h.part = slot.val - e.start.val),
                muted := h.muted, noBlock := h.noBlock, data := data }]
          else [])
      ∧ (if t.sr.target = s.sr.target then
          t.sr.subscription = some stream
            ∧ (slot ≠ 23 → t.sr = { s.sr with gathered := brought })
            ∧ (slot = 23 → ∃ entry : RingEntry, t.sr.ring = s.sr.ring.set (ringIndex (m - 1)) entry ∧ t.sr.gathered = []
              ∧ entry.round = some (m - 1)
              ∧ (match brought with
                | [] => entry.status = .missing
                | first :: _ =>
                  if brought.length = widthOf first.kind
                      ∧ (∀ x ∈ brought, x.good = true ∧ x.kind = first.kind ∧ x.start = first.start) then
                    entry.kind = some first.kind
                      ∧ (if ∃ x ∈ brought, x.muted = true then entry.status = .muted
                        else entry.status = .valid ∧ entry.data = brought.map (·.data))
                  else entry.status = .missing)
              ∧ (if s.sr.state = .lost ∧ entry.status ≠ .missing then
                  t.sr.state = .filling ∧ t.sr.lead = some (m - 1) ∧ t.cr.holds .programLost = false
                else
                  t.sr.state = s.sr.state
                    ∧ t.sr.lead =
                      (match s.sr.lead with
                      | none => none
                      | some r =>
                        if entry.status ≠ .missing ∧ roundBefore (m - 1) r = true then some (m - 1)
                        else if (t.sr.ring[ringIndex r]).round = some r ∧ (t.sr.ring[ringIndex r]).status ≠ .missing then some r
                        else none)))
        else
          s.sr.target = some t.sr.subscription ∧ t.sr.target = none ∧ t.sr.gathered = []
            ∧ (∀ n : OutputNo, t.om.outputs[n].state.sounding = false) ∧ (∀ i : Fin 8, t.sr.ring[i].status = .missing))

/-- The slot table keeps its form at every step (R49, R51). -/
def Obligations.EveryStepKeepsTheSlotTable : Prop :=
  ∀ s t : State, SlotTable.wf s.st → step s = .next t → SlotTable.wf t.st

/-- The table of R59: the state that settling gives a publication record without an outstanding message, what it offers, and STREAM_NO_SLOT. -/
def Obligations.RecordsSettle : Prop :=
  ∀ (src : Source) (s : State), s.publishes src = true → (s.sp.get src).outstanding = .none →
    (s.settle src).cr.holds (.streamNoSlot src) = (((s.settle src).sp.get src).state == .noSlot)
    ∧ (match s.demanded src, runOf s.st (s.ownStream src) with
      | true, some e =>
        if e.kind = (s.sp.get src).wanted then ((s.settle src).sp.get src).state = .published ∧ (s.settle src).lc = s.lc
        else ((s.settle src).sp.get src).state = .reclaiming ∧ ((s.settle src).sp.get src).outstanding = .release
          ∧ (s.settle src).lc = s.lc.offer (.release (s.ownStream src))
      | true, none =>
        (∀ start, placementFits s.st (s.ownStream src) (s.sp.get src).wanted start = true →
          (∀ lower, lower < start → placementFits s.st (s.ownStream src) (s.sp.get src).wanted lower = false) →
          ((s.settle src).sp.get src).state = .claiming
            ∧ ((s.settle src).sp.get src).outstanding = .claim (s.sp.get src).wanted start
            ∧ (s.settle src).lc = s.lc.offer (.claim (s.ownStream src) (s.sp.get src).wanted start))
        ∧ ((∀ start, placementFits s.st (s.ownStream src) (s.sp.get src).wanted start = false) →
          ((s.settle src).sp.get src).state = .noSlot ∧ (s.settle src).lc = s.lc)
      | false, some _ =>
        ((s.settle src).sp.get src).state = .undemanded ∧ ((s.settle src).sp.get src).outstanding = .release
          ∧ (s.settle src).lc = s.lc.offer (.release (s.ownStream src))
      | false, none => ((s.settle src).sp.get src).state = .undemanded ∧ (s.settle src).lc = s.lc)

/-! ## Zones (chapter 5) -/

/-- A ZONE SET (R75, R76, R81, R150): in range, the carried fields take their values in the record of the named zone, with program and standby by the
table of R76; from the take of the joining PRESENCE to the end of the join window the fields carried or changed are marked, program and standby
together; a zone that leaves the tuner's stream leaves the holder list, and one that comes to it is appended. Out of range, no record, mark or
holder changes. The receiver follows the own zone's program (R67, R72); that it does so before the go condition is evaluated, where one ZONE SET
turns mute off and changes the program, and that the bits that its layout does not name are ignored, is the model's choice (the log's rows 62 and
67). -/
def Obligations.ZoneSetsAreApplied : Prop :=
  ∀ (k : Station) (p : List Byte) (s : State), s.takes = true →
    ∃ t, exec (.zoneSet k p) s = .next t
      ∧ (match zoneSetFields p with
        | none => t.zt.records = s.zt.records ∧ t.zt.marks = s.zt.marks ∧ t.tb.holders = s.tb.holders
        | some f =>
          (∀ z, z ≠ f.zone → t.zt.records[z] = s.zt.records[z] ∧ t.zt.marks[z] = s.zt.marks[z])
            ∧ (let old := s.zt.records[f.zone]
              let new := t.zt.records[f.zone]
              let programTouched := f.program.isSome = true ∨ new.program ≠ old.program
              let standbyTouched := f.standby.isSome = true ∨ new.standby ≠ old.standby
              if s.pt.mode = .joining ∧ s.pt.joinFlag = false then
                t.zt.marks[f.zone].listening = (s.zt.marks[f.zone].listening || f.listening.isSome)
                  ∧ t.zt.marks[f.zone].volume = (s.zt.marks[f.zone].volume || f.volume.isSome)
                  ∧ t.zt.marks[f.zone].mute = (s.zt.marks[f.zone].mute || f.mute.isSome)
                  ∧ (t.zt.marks[f.zone].program = true ↔
                      s.zt.marks[f.zone].program = true ∨ programTouched ∨ standbyTouched ∧ new.standby = true)
                  ∧ (t.zt.marks[f.zone].standby = true ↔
                      s.zt.marks[f.zone].standby = true ∨ standbyTouched ∨ programTouched ∧ new.program.isSome = true)
              else t.zt.marks[f.zone] = s.zt.marks[f.zone])
            ∧ (let old := s.zt.records[f.zone].program
              let new := t.zt.records[f.zone].program
              let stream := some (s.ownStream .t)
              t.tb.holders =
                if s.cl.values.tunerFitted = false ∨ old = new then s.tb.holders
                else (if old = stream then s.tb.holders.filter (· != f.zone) else s.tb.holders) ++ (if new = stream then [f.zone] else []))
            ∧ t.zt.records[f.zone].listening = f.listening.getD s.zt.records[f.zone].listening
            ∧ t.zt.records[f.zone].volume = f.volume.getD s.zt.records[f.zone].volume
            ∧ t.zt.records[f.zone].mute = f.mute.getD s.zt.records[f.zone].mute
            ∧ (t.zt.records[f.zone].program, t.zt.records[f.zone].standby) =
              (match f.standby, f.program with
              | some true, _ => (none, true)
              | some false, none => (s.zt.records[f.zone].program, false)
              | some false, some program => (program, false)
              | none, some (some stream) => (some stream, false)
              | none, some none => (none, s.zt.records[f.zone].standby)
              | none, none => (s.zt.records[f.zone].program, s.zt.records[f.zone].standby)))
      ∧ s.followsProgram t
      ∧ t.zt.holders = s.zt.holders ∧ (∀ e, t.pt.entries[k] = some e → e.silence = 0)
      ∧ ChangesOnly (.zt :: modeParts) s t

/-- A ZONE STATE (R80, R81, R150): a JOINING station takes each carried field that it has not marked, and its tuner's holders are the zones whose
records then name its stream, in zone order; a station that is not JOINING, and a message that fails the test, change no record and no holder. That
the flag bits that the layout does not name are ignored is the model's choice (the log's row 67). -/
def Obligations.ZoneStatesFillRecords : Prop :=
  ∀ (k : Station) (p : List Byte) (s : State), s.takes = true →
    ∃ t, exec (.zoneState k p) s = .next t
      ∧ (match s.pt.mode, zoneStateFields p with
        | .joining, some carried =>
          ∀ z : Zone, t.zt.records[z] =
            { program := if s.zt.marks[z].program = true then s.zt.records[z].program else carried[z].program
              listening := if s.zt.marks[z].listening = true then s.zt.records[z].listening else carried[z].listening
              volume := if s.zt.marks[z].volume = true then s.zt.records[z].volume else carried[z].volume
              mute := if s.zt.marks[z].mute = true then s.zt.records[z].mute else carried[z].mute
              standby := if s.zt.marks[z].standby = true then s.zt.records[z].standby else carried[z].standby }
        | _, _ => t.zt.records = s.zt.records)
      ∧ t.tb.holders =
        (if s.pt.mode = .joining ∧ (zoneStateFields p).isSome = true ∧ s.cl.values.tunerFitted = true then
          (List.finRange 4).filter fun z => t.zt.records[z].program == some (s.ownStream .t)
        else s.tb.holders)
      ∧ t.zt.marks = s.zt.marks ∧ t.zt.holders = s.zt.holders ∧ (∀ e, t.pt.entries[k] = some e → e.silence = 0)
      ∧ ChangesOnly (.zt :: modeParts) s t

/-- The zone records keep their form at every step (R76, R80, R81): no record in standby names a program, no volume is above 160, and fields are
marked only in the join window, program and standby together. The tuner's holder list keeps its own (R150): each zone at most once, and exactly the
zones whose record names the tuner's stream. -/
def Obligations.EveryStepKeepsTheZones : Prop :=
  (∀ s t : State, s.zonesWf → step s = .next t → t.zonesWf)
  ∧ ∀ s t : State, s.holdersWf → step s = .next t → t.holdersWf

/-- A ROLE MAP addressed to this station (R90, R91): in range, the override is set, the overload and decay counts are 0 (1 where the output leaves
RETIRED in an ACTIVE station with its fault line asserted), the output is not RETIRED, and DONE is offered; otherwise BAD_VALUE is, and nothing else
changes. The zone of a requester that has none in range is the model's free value (the log's row 10). -/
def Obligations.RoleMapsOverride : Prop :=
  ∀ (k : Station) (p : List Byte) (s : State), s.takes = true → addressedTo s.own p = true → s.hasRoom = true →
    ∃ t, exec (.roleMap k p) s = .next t
      ∧ (match roleMapFields p with
        | some (z, n, role) =>
          t.cl = { s.cl with overrides := s.cl.overrides.set n (some role) }
            ∧ t.om.outputs[n].overload =
              (if s.om.outputs[n].state = .retired ∧ s.isActive = true ∧ s.pins.faultLines[n] = true then 1 else 0)
            ∧ t.om.outputs[n].decay = 0 ∧ t.om.outputs[n].state ≠ .retired ∧ t.cr.holds (.outputRetired n) = false
            ∧ (∀ j : OutputNo, j ≠ n → t.om.outputs[j].overload = s.om.outputs[j].overload)
            ∧ t.replied { station := k, zone := z } .roleMap .done none
        | none => t.refused k p .roleMap .badValue ∧ t.cl = s.cl ∧ t.om = s.om)
      ∧ ChangesOnly [.lc, .pt, .om, .cl, .cr, .draws] s t

/-! ## Digital inputs (chapter 6) -/

/-- The clock of a powered input (R93, R94, R95): gained in NO_SIGNAL it brings ACQUIRING, lost it brings NO_SIGNAL with every count cleared and the
buffers emptied, and the end of ACQUIRING gives the state of the held class and the sync run; the rate converter starts from silence and loses its
memory (R98). The other input is not touched. That ACQUIRING_END performs the last step of a count alone is the model's choice (the log's row
1). -/
def Obligations.InputClocksAreFollowed : Prop :=
  ∀ (id : InputId) (s : State), s.inputsPowered = true →
    ((s.ir.get id).state = .noSignal →
      ∃ t, exec (.clockGained id) s = .next t
        ∧ (t.ir.get id).state = .acquiring ∧ (t.ir.get id).rateClass = none ∧ (t.ir.get id).steady = 0
        ∧ t.pins = s.pins.setClock id true ∧ (∀ j, j ≠ id → t.ir.get j = s.ir.get j)
        ∧ ChangesOnly [.ir, .sp, .lc, .pt, .cr, .pins] s t)
    ∧ ((s.ir.get id).state ≠ .noSignal →
      ∃ t, exec (.clockLost id) s = .next t
        ∧ (t.ir.get id).state = .noSignal ∧ (t.ir.get id).rateClass = none ∧ (t.ir.get id).steady = 0 ∧ (t.ir.get id).syncRun = 0
        ∧ (t.ir.get id).withoutSync = 0 ∧ (t.ir.get id).lastCounter = none ∧ (t.ir.get id).blocks = []
        ∧ (t.ir.get id).inProgress = false ∧ (t.ir.get id).history = ConverterHistory.silence
        ∧ t.pins = s.pins.setClock id false ∧ (∀ j, j ≠ id → t.ir.get j = s.ir.get j)
        ∧ ChangesOnly [.ir, .sp, .lc, .pt, .cr, .pins] s t)
    ∧ (∀ held, (s.ir.get id).state = .acquiring → (s.ir.get id).rateClass = some held → 7 ≤ (s.ir.get id).steady →
      ∃ t, exec (.acquiringEnd id) s = .next t
        ∧ (t.ir.get id).state =
          (if held = .other then .unsupported
          else if (s.ir.get id).syncRun = 2 then if held = .r48 then .packed else .unsupported
          else .pcm)
        ∧ (t.ir.get id).steady = 8 ∧ (t.ir.get id).rateClass = some held ∧ (t.ir.get id).syncRun = (s.ir.get id).syncRun
        ∧ (t.cr.holds (.inputUnsupported id) = true ↔ (t.ir.get id).state = .unsupported)
        ∧ (t.ir.get id).history = ConverterHistory.silence
        ∧ (∀ j, j ≠ id → t.ir.get j = s.ir.get j) ∧ ChangesOnly [.ir, .sp, .lc, .pt, .cr] s t)

/-- The sync watch and the alignment buffer of a powered input with a clock (R96, R97, R101): a pattern with its counter, the loss of sync, and a
block that completes; a change of state leaves the rate converter silent (R98). That SYNC_LOST performs the last step of a count alone, that each
block needs a sync pattern of its own, and that PACKED begins at the confirming pattern, before its block completes, are the model's choices (the
log's rows 1, 53 and 59). -/
def Obligations.SyncIsWatched : Prop :=
  ∀ (id : InputId) (s : State), s.inputsPowered = true → (s.ir.get id).state ≠ .noSignal →
    (∀ counter, ∃ t, exec (.syncPattern id counter) s = .next t
      ∧ (t.ir.get id).lastCounter = some counter ∧ (t.ir.get id).withoutSync = 0
      ∧ (t.ir.get id).syncRun =
        (if (s.ir.get id).lastCounter = some (counter - 1) then min ((s.ir.get id).syncRun + 1) 2 else 1)
      ∧ (t.ir.get id).state =
        (if (t.ir.get id).syncRun = 2 ∧ (s.ir.get id).syncRun ≠ 2 ∧ (s.ir.get id).state = .pcm then
          if (s.ir.get id).rateClass = some .r48 then .packed else .unsupported
        else (s.ir.get id).state)
      ∧ (t.ir.get id).rateClass = (s.ir.get id).rateClass ∧ (t.ir.get id).blocks = (s.ir.get id).blocks
      ∧ ((t.ir.get id).state ≠ (s.ir.get id).state → (t.ir.get id).history = ConverterHistory.silence)
      ∧ (∀ j, j ≠ id → t.ir.get j = s.ir.get j) ∧ ChangesOnly [.ir, .sp, .lc, .pt, .cr] s t)
    ∧ ((s.ir.get id).withoutSync = 1 → (s.ir.get id).patternSeen = false →
      ∃ t, exec (.syncLost id) s = .next t
        ∧ (t.ir.get id).syncRun = 0 ∧ (t.ir.get id).lastCounter = none ∧ (t.ir.get id).withoutSync = 2 ∧ (t.ir.get id).blocks = []
        ∧ (t.ir.get id).state =
          (if (s.ir.get id).state = .packed ∨ (s.ir.get id).state = .unsupported ∧ (s.ir.get id).rateClass ≠ some .other then .pcm
          else (s.ir.get id).state)
        ∧ ((t.ir.get id).state ≠ (s.ir.get id).state → (t.ir.get id).history = ConverterHistory.silence)
        ∧ (∀ j, j ≠ id → t.ir.get j = s.ir.get j) ∧ ChangesOnly [.ir, .sp, .lc, .pt, .cr] s t)
    ∧ (∀ block, (s.ir.get id).inProgress = true →
      ∃ t, exec (.blockCompletion id block) s = .next t
        ∧ (t.ir.get id).blocks = ((s.ir.get id).blocks ++ [block]).drop ((s.ir.get id).blocks.length - 1)
        ∧ (t.ir.get id).inProgress = false ∧ (t.ir.get id).state = (s.ir.get id).state
        ∧ (∀ j, j ≠ id → t.ir.get j = s.ir.get j) ∧ ChangesOnly [.ir, .sp, .lc, .pt, .cr] s t)

/-! ## Packed decoding and the mix matrix (chapter 7) -/

/-- A bad block in LOCKED (R112): CONCEAL with a count of 1, no candidate, the confirmed layout kept, the last good block at 6 dB less (24 steps of
10^(1/80)), and DECODE_CONCEAL held; from no other state but CONCEAL itself does a bad block lead to CONCEAL. The other blocks and states (R108 to
R111, R113, R114): HUNT takes a reference, CONFIRM confirms it at the next counter with its layout, LOCKED and CONCEAL play a valid block and
confirm a new layout at its second block in a row, the fourth bad block ends CONCEAL in HUNT, and a muted block, or none, changes no field. -/
def Obligations.BadBlocksAreConcealed : Prop :=
  ∀ s : State,
    (s.pd.state = .locked →
      (s.decode (.block none)).pd.state = .conceal ∧ (s.decode (.block none)).pd.conceal = 1
        ∧ (s.decode (.block none)).pd.candidate = none ∧ (s.decode (.block none)).pd.confirmed = s.pd.confirmed
        ∧ (∀ f, s.pd.lastGood = some f → (s.decode (.block none)).mm.frame = { f with gain80 := f.gain80 - 24 })
        ∧ (s.decode (.block none)).cr.holds .decodeConceal = true)
    ∧ (s.pd.state ≠ .locked → (s.decode (.block none)).pd.state = .conceal → s.pd.state = .conceal)
    ∧ (s.pd.state = .hunt →
      (s.decode (.block none)).pd = s.pd ∧ (s.decode (.block none)).mm.frame = Frame.silence
        ∧ ∀ b, (s.decode (.block (some b))).pd = { s.pd with state := .confirm, reference := some (b.counter, b.layout) }
          ∧ (s.decode (.block (some b))).mm.frame = Frame.silence)
    ∧ (∀ counter layout, s.pd.state = .confirm → s.pd.reference = some (counter, layout) →
      (s.decode (.block none)).pd = { s.pd with state := .hunt, reference := none }
        ∧ (s.decode (.block none)).mm.frame = Frame.silence
        ∧ ∀ b, (s.decode (.block (some b))).mm.frame = Frame.silence
          ∧ (if b.counter = counter + 1 ∧ b.layout = layout then
              (s.decode (.block (some b))).pd =
                { state := .locked, reference := none, confirmed := some b.layout, candidate := none, conceal := 0,
                  lastGood := some (blockFrame b) }
                ∧ (s.decode (.block (some b))).mm.dirty = true
            else (s.decode (.block (some b))).pd = { s.pd with reference := some (b.counter, b.layout) }))
    ∧ (∀ b, s.pd.state = .locked ∨ s.pd.state = .conceal →
      (s.decode (.block (some b))).pd.state = .locked ∧ (s.decode (.block (some b))).pd.conceal = 0
        ∧ (s.decode (.block (some b))).pd.lastGood = some (blockFrame b) ∧ (s.decode (.block (some b))).mm.frame = blockFrame b
        ∧ (s.decode (.block (some b))).cr.holds .decodeConceal = false
        ∧ (if s.pd.confirmed = some b.layout then
            (s.decode (.block (some b))).pd.confirmed = s.pd.confirmed ∧ (s.decode (.block (some b))).pd.candidate = none
          else if s.pd.candidate = some b.layout then
            (s.decode (.block (some b))).pd.confirmed = some b.layout ∧ (s.decode (.block (some b))).pd.candidate = none
              ∧ (s.decode (.block (some b))).mm.dirty = true
          else
            (s.decode (.block (some b))).pd.confirmed = s.pd.confirmed
              ∧ (s.decode (.block (some b))).pd.candidate = some b.layout))
    ∧ (∀ f, s.pd.state = .conceal → s.pd.lastGood = some f →
      (s.decode (.block none)).pd.confirmed = s.pd.confirmed
        ∧ (if s.pd.conceal < 3 then
            (s.decode (.block none)).pd.state = .conceal ∧ (s.decode (.block none)).pd.conceal = s.pd.conceal + 1
              ∧ (s.decode (.block none)).pd.lastGood = some f
              ∧ (s.decode (.block none)).mm.frame = { f with gain80 := f.gain80 - 24 * (s.pd.conceal + 1) }
          else
            (s.decode (.block none)).pd.state = .hunt ∧ (s.decode (.block none)).pd.conceal = 0
              ∧ (s.decode (.block none)).pd.lastGood = none ∧ (s.decode (.block none)).mm.frame = Frame.silence
              ∧ (s.decode (.block none)).cr.holds .decodeConceal = false))
    ∧ (∀ h, h = .muted ∨ h = .nothing → (s.decode h).pd = s.pd ∧ (s.decode h).mm.frame = Frame.silence)

/-- Every channel of the layout reaches a role of the effective set in STEREO and SURROUND, and in DIRECT a channel whose role is not there has no
coefficient (R119). -/
def Obligations.EveryChannelReachesARole : Prop :=
  ∀ (layout effective : RoleSet) (mode : ListeningMode) (col : Role), hasRole layout col = true →
    (mode ≠ .direct → effective ≠ 0 → ∃ row, hasRole effective row = true ∧ coefAt layout effective mode row col ≠ .zero)
    ∧ (mode = .direct → hasRole effective col = false → ∀ row, coefAt layout effective mode row col = .zero)

/-- The watchdog's last MISSING round (R71, R113): LOST with PROGRAM_LOST held and the count at 0; in HARD mode no output sounds after it, in RAMP mode
every output that ramps up or plays turns to RAMP_DOWN at its position. The decoder of a PACKED program takes the round as a bad block, and its
fourth one leads to HUNT. Premise: no target is held. That the command performs the last step of the count alone is the model's choice (the log's
row 1). -/
def Obligations.WatchdogLosesTheProgram : Prop :=
  ∀ s : State, s.joined = true → s.sr.state = .running → s.cl.values.watchdogLimit ≤ s.sr.watchdog + 1 → s.sr.target = none →
    ∃ t, exec .watchdogExpiry s = .next t
      ∧ t.sr =
        { s.sr with
          state := .lost
          watchdog := 0
          lastPairs := if s.sr.programKind = some .pcm2 ∧ s.sr.watchdog ≠ 0 then silentPairs else s.sr.lastPairs }
      ∧ t.cr.holds .programLost = true ∧ t.mm.frame = Frame.silence
      ∧ (s.sr.programKind ≠ some .packed → t.pd = s.pd)
      ∧ (s.sr.programKind = some .packed → s.pd.state = .conceal → s.pd.conceal = 3 →
          t.pd.state = .hunt ∧ t.pd.conceal = 0 ∧ t.pd.lastGood = none ∧ t.pd.confirmed = s.pd.confirmed
            ∧ t.cr.holds .decodeConceal = false)
      ∧ (s.sr.programKind = some .packed → s.pd.state = .locked → t.pd.state = .conceal ∧ t.pd.conceal = 1)
      ∧ (∀ n : OutputNo,
          if s.cl.values.cutMode = .hard then
            t.om.outputs[n].state =
              (if s.om.outputs[n].state.sounding = true then if s.isActive = true then .silent else .off else s.om.outputs[n].state)
          else t.om.outputs[n] =
            (if s.om.outputs[n].state = .rampUp ∨ s.om.outputs[n].state = .playing then { s.om.outputs[n] with state := .rampDown }
            else s.om.outputs[n]))
      ∧ ChangesOnly [.sr, .om, .mm, .pd, .cr, .lc, .pt] s t

/-! ## Loudspeaker outputs (chapter 8) -/

/-- A round begin swaps a matrix that was dirty before it (R121), and moves the attenuation of every output by one step toward the own zone's volume
(R132). Outside the join window it adds 1 to the decay count of every output with 1 to 3 overloads, which at 4096 takes one of them, and takes 1 from
the recovery count of every output in FAULTED (R134, R136); what a command has done of these, or a fault taken first at this round begin leaves out,
is not done again. A rebuild by an absence counted at a round begin, or by the switch that a fault at it releases, given as its own command, waits for
the round begin after it, which finds the swap made. The order of swap and slew among the effects of a round begin, and the commands, are the model's choice (the log's rows 1, 9 and 24). -/
def Obligations.RoundBeginSwapsAndSlews : Prop :=
  ∀ (r : RoundBegin) (s : State), s.joined = true →
    (∀ k n c t, c = .peerAbsence k ∨ c = .outputFault n .assertsAheadOfRoundBegin → exec c s = .next t → s.mm.swapped = false →
      (t.mm.swapped = true → t.mm.dirty = true ∧ t.mm.active = (if s.mm.dirty = true then s.mm.pending else s.mm.active))
        ∧ (t.mm.swapped = false → t.mm.active = s.mm.active ∧ t.mm.pending = s.mm.pending ∧ t.mm.dirty = s.mm.dirty))
    ∧ ∃ t, exec (.roundBegin r) s = .next t
      ∧ t.mm.active = (if s.mm.swapped = false ∧ s.mm.dirty = true then s.mm.pending else s.mm.active) ∧ t.mm.swapped = false
      ∧ (s.mm.swapped = true → s.mm.dirty = true → t.mm.dirty = true)
      ∧ (∀ n : OutputNo, t.om.outputs[n].atten =
        if s.om.outputs[n].atten < s.ownRecord.volume then s.om.outputs[n].atten + 1
        else if s.ownRecord.volume < s.om.outputs[n].atten then s.om.outputs[n].atten - 1
        else s.om.outputs[n].atten)
      ∧ (∀ n : OutputNo, s.pt.mode ≠ .joining →
          (s.om.outputs[n].state = .faulted → 2 ≤ s.om.outputs[n].recovery ∨ s.om.outputs[n].taken.recovery = true) →
          (s.om.outputs[n].state = .faulted → t.om.outputs[n].state = .faulted ∧ t.om.outputs[n].recovery =
            if s.om.outputs[n].taken.recovery = true then s.om.outputs[n].recovery else s.om.outputs[n].recovery - 1)
          ∧ (t.om.outputs[n].overload, t.om.outputs[n].decay) =
            (if s.om.outputs[n].taken.decay = true ∨ s.om.outputs[n].overload = 0 ∨ 4 ≤ s.om.outputs[n].overload then
              (s.om.outputs[n].overload, s.om.outputs[n].decay)
            else if 4095 ≤ s.om.outputs[n].decay then (s.om.outputs[n].overload - 1, 0)
            else (s.om.outputs[n].overload, s.om.outputs[n].decay + 1)))

/-- The last steps of an output's timers (R129, R136): the ramp up ends in PLAYING, a ramp down in SILENT (or in RAMP_UP at 0 where the start form
holds) or OFF, and the decay takes one overload. No other part changes, but for a held program that the last ramp down switches to. The
step is noted, so that the coming round begin does not make it again. That the commands perform a last step alone, and that they end the ramp also from RAMP_UP at 16 and RAMP_DOWN at 0, where turns between two round begins can
leave an output (R48), is the model's choice (the log's rows 1 and 44). -/
def Obligations.OutputTimersEnd : Prop :=
  ∀ (n : OutputNo) (s : State), s.joined = true → s.quiet = true →
    (s.om.outputs[n].state = .rampUp → 15 ≤ s.om.outputs[n].ramp →
      exec (.rampUpComplete n) s = .next (s.setOutput n
        { s.om.outputs[n] with state := .playing, ramp := 16, taken := { s.om.outputs[n].taken with ramp := true } }))
    ∧ (s.om.outputs[n].state = .rampDown → s.om.outputs[n].ramp ≤ 1 →
      ∃ t, exec (.rampDownComplete n) s = .next t
        ∧ t.om.outputs[n].state = (if s.isActive = true then if s.goStart n = true then .rampUp else .silent else .off)
        ∧ t.om.outputs[n].ramp = 0 ∧ t.om.outputs[n].taken.ramp = true
        ∧ (s.sr.target = none → ChangesOnly [.om] s t)
        ∧ (∀ program, s.sr.target = some program → (∀ j : OutputNo, t.om.outputs[j].state.sounding = false) →
            t.sr.subscription = program ∧ t.sr.target = none))
    ∧ (1 ≤ s.om.outputs[n].overload → s.om.outputs[n].overload ≤ 3 → 4095 ≤ s.om.outputs[n].decay →
      exec (.overloadDecay n) s = .next
        (s.setOutput n { s.om.outputs[n] with
          overload := s.om.outputs[n].overload - 1, decay := 0, taken := { s.om.outputs[n].taken with decay := true } }))

/-- Faults (R133 to R137): an assertion in a state that counts faults, or at the round begin at which recovery has left the output OFF, brings
FAULTED with a recovery count of 250, or RETIRED at the fourth, the stage disabled and the decay count 0; any other move of the line changes its
level alone. The end of recovery counts another fault where the line is asserted, and otherwise brings SILENT (or RAMP_UP where the start form
holds) or OFF; in both cases a STATUS is offered, and a PRESENCE after the first. That FAULT_RECOVERY_END performs the last step of a count alone,
and that it offers both with the line asserted, and the edges at a round begin, are the model's choice (the log's rows 1, 7 and 35). -/
def Obligations.FaultsAreCounted : Prop :=
  ∀ (n : OutputNo) (s : State), s.inReset = false →
    (∀ edge, s.pins.faultLines[n] = false →
      (edge = .asserts ∧ s.om.outputs[n].state.countsFaults = true
        ∨ edge = .assertsAtRoundBegin ∧ (s.om.outputs[n].state.countsFaults = true ∨ s.om.outputs[n].recovered = 1)
        ∨ edge = .assertsAheadOfRoundBegin ∧ (s.om.outputs[n].state.countsFaults = true ∨ s.om.outputs[n].recovered = 2)) →
      ∃ t, exec (.outputFault n edge) s = .next t
        ∧ t.om.outputs[n] =
          { s.om.outputs[n] with
            state := if s.om.outputs[n].overload + 1 < 4 then .faulted else .retired
            ramp := 0
            enabled := false
            overload := s.om.outputs[n].overload + 1
            decay := 0
            recovery := if s.om.outputs[n].overload + 1 < 4 then 250 else 0
            recovered := 0
            taken :=
              if edge = .assertsAheadOfRoundBegin then { s.om.outputs[n].taken with decay := true, recovery := true }
              else s.om.outputs[n].taken }
        ∧ (∀ j : OutputNo, j ≠ n → t.om.outputs[j] = s.om.outputs[j]) ∧ t.pins.faultLines[n] = true
        ∧ (t.cr.holds (.outputFaulted n) = true ↔ s.om.outputs[n].overload + 1 < 4)
        ∧ (t.cr.holds (.outputRetired n) = true ↔ 4 ≤ s.om.outputs[n].overload + 1))
    ∧ (∀ edge, edge = .releases ∨ s.pins.faultLines[n] = true
        ∨ s.om.outputs[n].state.countsFaults = false ∧ (edge = .assertsAtRoundBegin → s.om.outputs[n].recovered ≠ 1)
          ∧ (edge = .assertsAheadOfRoundBegin → s.om.outputs[n].recovered ≠ 2) →
      exec (.outputFault n edge) s = .next (s.driveFaultLine n (edge != .releases)))
    ∧ (s.joined = true → s.om.outputs[n].state = .faulted → s.om.outputs[n].recovery ≤ 1 →
      ∃ t, exec (.faultRecoveryEnd n) s = .next t
        ∧ (if s.pins.faultLines[n] = true then
            t.om.outputs[n].overload = s.om.outputs[n].overload + 1 ∧ t.om.outputs[n].decay = 0
              ∧ t.om.outputs[n].taken.decay = true ∧ t.om.outputs[n].taken.recovery = true
              ∧ (s.om.outputs[n].overload + 1 < 4 → t.om.outputs[n].state = .faulted ∧ t.om.outputs[n].recovery = 250)
              ∧ (4 ≤ s.om.outputs[n].overload + 1 → t.om.outputs[n].state = .retired ∧ t.om.outputs[n].recovery = 0)
          else
            t.om.outputs[n].state = (if s.isActive = true then if s.goStart n = true then .rampUp else .silent else .off)
              ∧ t.om.outputs[n].recovery = 0 ∧ t.om.outputs[n].overload = s.om.outputs[n].overload)
        ∧ t.om.outputs[n].taken.ramp = true ∧ (t.om.outputs[n].state = .off → t.om.outputs[n].recovered = 2)
        ∧ (t.cr.holds (.outputFaulted n) = true ↔ t.om.outputs[n].state = .faulted)
        ∧ (s.lc.queue = [] → s.cr.holds (.outputFaulted n) = true →
            t.queued (.status t.statusOf) ∧ (s.pt.firstOffered = true → t.queued (.presence t.presenceOf)))
        ∧ ChangesOnly [.om, .cr, .lc, .pt] s t)

/-- The supply and the MUTE line (R138, R139, R140): the level or line and its condition, and the go condition of every output: at LOW and at an
assertion the outputs that ramp up or play turn to RAMP_DOWN at their position; at NORMAL and at a release those whose start form then holds ramp
up. -/
def Obligations.SupplyAndMuteGateTheOutputs : Prop :=
  ∀ s : State, s.inReset = false → s.quiet = true →
    (s.sm = .normal →
      ∃ t, exec .supplyMoveToLow s = .next t ∧ t.sm = .low ∧ t.cr.holds .supplyLow = true
        ∧ (∀ n : OutputNo, t.om.outputs[n] =
            if s.om.outputs[n].state = .rampUp ∨ s.om.outputs[n].state = .playing then { s.om.outputs[n] with state := .rampDown }
            else s.om.outputs[n])
        ∧ ChangesOnly [.sm, .om, .cr, .lc] s t)
    ∧ (s.sm = .low →
      ∃ t, exec .supplyMoveToNormal s = .next t ∧ t.sm = .normal ∧ t.cr.holds .supplyLow = false
        ∧ (∀ n : OutputNo, t.om.outputs[n] =
            (s.om.outputs[n]).evaluate (({ s with sm := .normal }).goStart n) (({ s with sm := .normal }).goContinue n))
        ∧ (∀ c, s.ps.recoveryEnded = true → s.ps.engine = .idle → s.ps.reads = [] → s.ps.compaction = some c →
            t.ps.engine = .running c.next)
        ∧ ChangesOnly [.sm, .om, .cr, .lc, .ps] s t)
    ∧ (∃ t, exec .muteLineAssert s = .next t ∧ t.pins = { s.pins with mute := true } ∧ t.cr.holds .muteLine = true
        ∧ (∀ n : OutputNo, t.om.outputs[n] =
            if s.om.outputs[n].state = .rampUp ∨ s.om.outputs[n].state = .playing then { s.om.outputs[n] with state := .rampDown }
            else s.om.outputs[n])
        ∧ ChangesOnly [.pins, .om, .cr, .lc] s t)
    ∧ (∃ t, exec .muteLineRelease s = .next t ∧ t.pins = { s.pins with mute := false } ∧ t.cr.holds .muteLine = false
        ∧ (∀ n : OutputNo, t.om.outputs[n] =
            (s.om.outputs[n]).evaluate (({ s with pins := { s.pins with mute := false } }).goStart n)
              (({ s with pins := { s.pins with mute := false } }).goContinue n))
        ∧ ChangesOnly [.pins, .om, .cr, .lc] s t)

/-- A carrier boundary (R126, R141, R142): a stage is enabled exactly in SILENT, RAMP_UP, PLAYING and RAMP_DOWN; the width is the idle one outside
the sounding states and at the boundary that enables the stage, and otherwise that of the sample. -/
def Obligations.CarrierLoadsTheWidths : Prop :=
  ∀ s : State, s.inReset = false →
    ∃ t, exec .carrierBoundary s = .next t
      ∧ (∀ n : OutputNo, t.om.outputs[n] =
          { s.om.outputs[n] with
            enabled := s.om.outputs[n].state == .silent || s.om.outputs[n].state.sounding
            width :=
              if s.om.outputs[n].state.sounding = true ∧ s.om.outputs[n].enabled = true then
                widthOfSum (matrixSum s.mm.active s.mm.frame (s.currentRole n) s.om.period) s.mm.frame.gain80
                  s.om.outputs[n].atten s.om.outputs[n].ramp
              else 128 })
      ∧ ChangesOnly [.om] s t

/-- The outputs keep their form at every step (R125, R126, R133, R135, R136, R141). -/
def Obligations.EveryStepKeepsTheOutputs : Prop :=
  ∀ s t : State, s.outputsWf → step s = .next t → t.outputsWf

/-- Every condition is held exactly while its owner's state calls for it (section 11.4), at every step of a state whose outputs have their form. -/
def Obligations.EveryStepKeepsTheConditions : Prop :=
  ∀ s t : State, s.outputsWf → s.conditionsWf → step s = .next t → t.conditionsWf

/-! ## The radio tuner (chapter 9) -/

/-- Accepted TUNE, SEEK and SCAN (R153, R155, R156, R157): an operation in flight is aborted with its REPLY, the new operation is formed with the
frequency held at the take as its start, the unheld count is 0, and the tuner enters SETTLING at the first channel; a SCAN empties the list of the
band, and a SCAN aborted leaves its list PARTIAL. -/
def Obligations.TunerRequestsStart : Prop :=
  ∀ (k : Station) (p : List Byte) (z : Zone) (s : State), s.takes = true → addressedTo s.own p = true →
    s.cl.values.tunerFitted = true → requesterZone p = some z → (s.tb.holders = [] ∨ s.tb.holders.head? = some z) →
    s.pt.mode ≠ .standby →
    (∀ band freq, tuneFields p = some (band, freq) → validChannel s.cl.values.plan band freq = true →
      ∃ t op, exec (.tune k p) s = .next t ∧ t.tb.op = some op
        ∧ op.kind = .tune ∧ op.requester = ⟨k, z⟩ ∧ op.start = s.tb.freq ∧ op.stage = .tuning ∧ op.target = some freq
        ∧ t.tb.state = .settling ∧ t.tb.band = band ∧ t.tb.freq = freq ∧ t.tb.phase = settleTime band ∧ t.tb.unheld = 0
        ∧ t.tb.holders = s.tb.holders ∧ (∀ b, t.tb.list b = s.tb.listAborted b)
        ∧ (∀ old, s.tb.op = some old → s.hasRoom = true → t.replied old.requester old.kind.request .aborted none)
        ∧ ChangesOnly [.lc, .pt, .tb, .ps, .cr] s t)
    ∧ (∀ direction, directionAt p = some direction →
      ∃ t op, exec (.seek k p) s = .next t ∧ t.tb.op = some op
        ∧ op.kind = .seek ∧ op.requester = ⟨k, z⟩ ∧ op.direction = direction ∧ op.start = s.tb.freq ∧ op.stage = .stepping
        ∧ op.target = some (nextChannel s.cl.values.plan s.tb.band s.tb.freq direction)
        ∧ t.tb.state = .settling ∧ t.tb.band = s.tb.band
        ∧ t.tb.freq = nextChannel s.cl.values.plan s.tb.band s.tb.freq direction ∧ t.tb.unheld = 0
        ∧ t.tb.holders = s.tb.holders ∧ (∀ b, t.tb.list b = s.tb.listAborted b)
        ∧ (∀ old, s.tb.op = some old → s.hasRoom = true → t.replied old.requester old.kind.request .aborted none)
        ∧ ChangesOnly [.lc, .pt, .tb, .ps, .cr] s t)
    ∧ (∃ t op, exec (.scan k p) s = .next t ∧ t.tb.op = some op
        ∧ op.kind = .scan ∧ op.requester = ⟨k, z⟩ ∧ op.start = s.tb.freq ∧ op.stage = .stepping
        ∧ op.target = some (lowestChannel s.cl.values.plan s.tb.band)
        ∧ t.tb.state = .settling ∧ t.tb.band = s.tb.band ∧ t.tb.freq = lowestChannel s.cl.values.plan s.tb.band ∧ t.tb.unheld = 0
        ∧ t.tb.list s.tb.band = { entries := [], complete := false }
        ∧ (∀ other, other ≠ s.tb.band → t.tb.list other = s.tb.listAborted other)
        ∧ (∀ old, s.tb.op = some old → s.hasRoom = true → t.replied old.requester old.kind.request .aborted none)
        ∧ t.tb.holders = s.tb.holders ∧ ChangesOnly [.lc, .pt, .tb, .ps, .cr] s t)

/-- An accepted PRESET RECALL (R158, R172): the operation awaits its record, a tuner that is OFF powers up at its held channel and another goes on as
it stood, and a read is entered; where the read list is full the operation ends at once with EMPTY. The completion of the read ends the operation
with EMPTY or BAD_VALUE, the tuner going on as it stood, or tunes to the record's channel; the result of an aborted RECALL is discarded. -/
def Obligations.RecallsReadTheStore : Prop :=
  (∀ (number : Fin 30) (rest : List Read) (op : Operation) (s : State), s.ps.readInService = true → s.ps.reads = ⟨number, .recall⟩ :: rest →
    s.tb.op = some op → s.hasRoom = true →
    ∃ t ended, exec .readComplete s = .next t ∧ t.ps.reads = rest
      ∧ ended = { s.tb with op := none, unheld := 0, taken := { s.tb.taken with unheld := false } }
      ∧ (match s.ps.index[number] with
        | none => t.replied op.requester op.kind.request .empty none ∧ t.tb = ended
        | some ref =>
          let band := (slotAt s.ps.sectors ref).readBand
          let freq := (slotAt s.ps.sectors ref).freq.toNat
          if validChannel s.cl.values.plan band freq = true then
            t.tb.state = .settling ∧ t.tb.band = band ∧ t.tb.freq = freq ∧ t.tb.phase = settleTime band
              ∧ t.tb.op = some { op with band := band, stage := .tuning, target := some freq }
              ∧ t.tb.holders = s.tb.holders ∧ t.tb.fmList = s.tb.fmList ∧ t.tb.amList = s.tb.amList
          else t.replied op.requester op.kind.request .badValue none ∧ t.tb = ended)
      ∧ ChangesOnly [.lc, .pt, .tb, .ps, .cr] s t)
  ∧ (∀ (number : Fin 30) (rest : List Read) (s : State), s.ps.readInService = true → s.ps.reads = ⟨number, .abandoned⟩ :: rest →
    ∃ t, exec .readComplete s = .next t ∧ t.ps.reads = rest ∧ t.tb = s.tb ∧ ChangesOnly [.lc, .pt, .ps, .cr] s t)
  ∧ ∀ (k : Station) (p : List Byte) (z : Zone) (number : Fin 30) (s : State), s.takes = true → addressedTo s.own p = true →
    s.cl.values.tunerFitted = true → requesterZone p = some z → (s.tb.holders = [] ∨ s.tb.holders.head? = some z) →
    s.pt.mode ≠ .standby → presetAt p = some number → s.hasRoom = true →
    ∃ t, exec (.presetRecall k p) s = .next t
      ∧ t.tb.state = (if s.tb.state = .off then .settling else s.tb.state) ∧ t.tb.band = s.tb.band ∧ t.tb.freq = s.tb.freq
      ∧ (s.ps.reads.length < 16 →
          (∃ op, t.tb.op = some op ∧ op.kind = .recall ∧ op.requester = ⟨k, z⟩ ∧ op.stage = .awaiting ∧ op.target = none)
            ∧ t.ps.reads.length = s.ps.reads.length + 1
            ∧ t.ps.reads.getLast? = some { number := number, origin := .recall })
      ∧ (16 ≤ s.ps.reads.length → s.tb.op = none →
          t.tb.op = none ∧ t.ps.reads = s.ps.reads ∧ t.replied ⟨k, z⟩ .presetRecall .empty none)
      ∧ ChangesOnly [.lc, .pt, .tb, .ps, .cr, .draws] s t

/-- The four tests of a tuner request (R152), in their order: the first that fails gives the outcome of the REPLY, and the tuner and the store
stand. The zone of a requester that has none in range is the model's free value (the log's row 10). -/
def Obligations.TunerRequestsAreTested : Prop :=
  ∀ (k : Station) (p : List Byte) (outcome : ReplyOutcome) (s : State) (c : Instr) (kind : RequestKind) (inRange : Bool),
    s.takes = true → addressedTo s.own p = true → s.hasRoom = true →
    (c, kind, inRange) ∈
      [(Instr.tune k p, RequestKind.tune, (tuneFields p).any fun x => validChannel s.cl.values.plan x.1 x.2),
        (Instr.seek k p, RequestKind.seek, (directionAt p).isSome), (Instr.scan k p, RequestKind.scan, true),
        (Instr.presetRecall k p, RequestKind.presetRecall, (presetAt p).isSome)] →
    (if s.cl.values.tunerFitted = false then outcome = .noTuner
    else if requesterZone p = none ∨ inRange = false then outcome = .badValue
    else if s.tb.holders ≠ [] ∧ s.tb.holders.head? ≠ requesterZone p then outcome = .held
    else s.pt.mode = .standby ∧ outcome = .busy) →
    ∃ t, exec c s = .next t ∧ t.refused k p kind outcome ∧ ChangesOnly [.lc, .pt, .cr, .draws] s t

/-- The settle time and the unheld time (R147, R151): the end of settling opens a gate for the gate time of the band, and 1000 rounds without a
holder or an operation power the tuner down, with its channel, lists, level and pilot kept. The round begin that SETTLE_END stands for counts nothing
of the gate, which starts at its capture. That the commands perform a last step alone is the model's choice (the log's row 1). -/
def Obligations.TunerTimersEnd : Prop :=
  ∀ s : State, s.joined = true → s.cl.values.tunerFitted = true → s.quiet = true →
    (s.tb.state = .settling → s.tb.phase ≤ 1 →
      ∃ t, exec .settleEnd s = .next t
        ∧ t.tb.state = .measuring ∧ t.tb.phase = gateTime s.tb.band ∧ t.tb.gate.ifStart = s.tb.ifCount ∧ t.tb.gate.levelSum = 0
        ∧ t.tb.gate.readings = 0 ∧ t.tb.gate.left = gateTime s.tb.band ∧ t.tb.freq = s.tb.freq ∧ t.tb.band = s.tb.band
        ∧ t.tb.op = s.tb.op ∧ ChangesOnly [.tb] s t
        ∧ (∀ r, ∃ u, exec (.roundBegin r) t = .next u
          ∧ (u.tb.state = .measuring → u.tb.phase = gateTime s.tb.band ∧ u.tb.gate.counterStart = u.rt.counter)))
    ∧ (s.tb.state ≠ .off → s.tb.holders = [] → s.tb.op = none → 999 ≤ s.tb.unheld →
      ∃ t, exec .unheldTimeout s = .next t
        ∧ t.tb.state = .off ∧ t.tb.unheld = 0 ∧ t.tb.freqWord = none ∧ t.tb.band = s.tb.band ∧ t.tb.freq = s.tb.freq
        ∧ t.tb.fmList = s.tb.fmList ∧ t.tb.amList = s.tb.amList ∧ t.tb.level = s.tb.level ∧ t.tb.pilot = s.tb.pilot
        ∧ ChangesOnly [.tb] s t)

/-- The close of a gate (R147, R148, R155): the level is the mean of the readings rounded down, the offset is the IF count of the gate over its time
less the nominal IF in kHz (12288 counter units are 1 ms), and the pilot counts on FM alone. Without an operation the tuner enters LISTENING, and in
TUNING the operation ends there with DONE and the level. The round begin that the command stands for counts nothing of the phase or gate that
follows. The values of a gate without a reading, or without time, are left open. These are the
model's free values (the log's row 13), and that the command performs a last step alone is its choice (row 1). -/
def Obligations.GatesAreMeasured : Prop :=
  ∀ (elapsed : Nat) (fe : FrontEnd) (s : State), s.joined = true → s.cl.values.tunerFitted = true → s.tb.state = .measuring →
    s.tb.phase ≤ 1 →
    ∃ t, exec (.gateClose elapsed fe) s = .next t
      ∧ (let readings := s.tb.gate.readings + fe.levels.length
        let sum := s.tb.gate.levelSum + (fe.levels.map (·.toNat)).sum
        let time := (s.rt.counter + BitVec.ofNat 32 elapsed - s.tb.gate.counterStart).toNat
        (readings ≠ 0 → t.tb.level = sum / readings)
          ∧ (time ≠ 0 → t.tb.offset.den = time
            ∧ t.tb.offset.num =
              ((s.tb.ifCount + fe.edges - s.tb.gate.ifStart) * 12288 : Nat) - (nominalIf s.tb.band * time : Nat)))
      ∧ t.tb.pilot = (s.tb.band == .fm && s.tb.gate.pilot && fe.pilot)
      ∧ (s.tb.op = none → t.tb.state = .listening ∧ t.tb.freq = s.tb.freq)
      ∧ (∀ op, s.tb.op = some op → op.stage = .tuning → op.target.isSome = true → s.hasRoom = true →
          t.tb.state = .listening ∧ t.tb.freq = s.tb.freq ∧ t.tb.op = none
            ∧ t.replied op.requester op.kind.request .done (some t.tb.level))
      ∧ (∀ r, ∃ u, exec (.roundBegin r) t = .next u
        ∧ (u.tb.state = t.tb.state →
          u.tb.phase = t.tb.phase ∧ (t.tb.state = .listening → u.tb.gate.left = gateTime t.tb.band ∧ u.tb.gate.counterStart = u.rt.counter)))
      ∧ ChangesOnly [.tb, .lc, .cr, .pt, .draws] s t

/-- A SEEK at the close of a gate in STEPPING (R156, R148): an accepted channel ends it with DONE and its frequency and enters the station list at its
place (R160); a rejected one moves it to the next channel, or back to the start where the next channel is the start. A SCAN at such a close (R157)
appends an accepted channel while the list has room and moves up, or, from the highest channel, marks the list COMPLETE and returns to its first
entry. At the close in RETURNING and in ENDING the operation ends there. The lists keep their form. -/
def Obligations.SeeksStep : Prop :=
  (∀ (op : Operation) (counter : Counter) (s : State), s.tb.op = some op → op.kind = .scan → op.stage = .stepping → op.target.isSome = true →
    ∃ entries, entries =
      (if s.cl.values.threshold s.tb.band ≤ s.tb.level ∧ s.tb.offset.num.natAbs ≤ acceptWindow s.tb.band * s.tb.offset.den
          ∧ (s.tb.list s.tb.band).entries.length < 40 then
        (s.tb.list s.tb.band).entries ++ [⟨s.tb.freq, s.tb.level⟩]
      else (s.tb.list s.tb.band).entries)
    ∧ ((s.tb.list s.tb.band).wf → (∀ e ∈ (s.tb.list s.tb.band).entries, e.freq < s.tb.freq) →
        ((s.actOnMeasurement counter).tb.list s.tb.band).wf)
    ∧ (∀ other, other ≠ s.tb.band → (s.actOnMeasurement counter).tb.list other = s.tb.list other)
    ∧ (s.actOnMeasurement counter).tb.state = .settling ∧ (s.actOnMeasurement counter).tb.band = s.tb.band
    ∧ ∃ stage freq, (s.actOnMeasurement counter).tb.freq = freq
      ∧ (s.actOnMeasurement counter).tb.op = some { op with stage := stage, target := some freq }
      ∧ (if s.tb.freq = highestChannel s.cl.values.plan s.tb.band then
          (s.actOnMeasurement counter).tb.list s.tb.band = { entries := entries, complete := true } ∧ stage = .ending
            ∧ freq = (match entries with
              | first :: _ => first.freq
              | [] => op.start)
        else
          (s.actOnMeasurement counter).tb.list s.tb.band = { entries := entries, complete := (s.tb.list s.tb.band).complete }
            ∧ stage = .stepping ∧ freq = nextChannel s.cl.values.plan s.tb.band s.tb.freq .up))
  ∧ (∀ (op : Operation) (counter : Counter) (s : State), s.tb.op = some op → op.stage = .returning ∨ op.stage = .ending →
    op.target.isSome = true → s.hasRoom = true →
    (s.actOnMeasurement counter).tb.state = .listening ∧ (s.actOnMeasurement counter).tb.op = none
      ∧ (s.actOnMeasurement counter).tb.freq = s.tb.freq
      ∧ (if op.stage = .ending then
          (s.actOnMeasurement counter).replied op.requester op.kind.request .done (some (s.tb.list s.tb.band).entries.length)
        else (s.actOnMeasurement counter).replied op.requester op.kind.request .notFound none))
  ∧ ∀ (op : Operation) (counter : Counter) (s : State), s.tb.op = some op → op.kind = .seek → op.stage = .stepping → op.target.isSome = true →
    s.hasRoom = true →
    (if s.cl.values.threshold s.tb.band ≤ s.tb.level ∧ s.tb.offset.num.natAbs ≤ acceptWindow s.tb.band * s.tb.offset.den then
      (s.actOnMeasurement counter).tb.state = .listening ∧ (s.actOnMeasurement counter).tb.op = none
        ∧ (s.actOnMeasurement counter).replied op.requester .seek .done (some s.tb.freq)
        ∧ ((s.tb.list s.tb.band).wf → ((s.actOnMeasurement counter).tb.list s.tb.band).wf)
        ∧ ((s.actOnMeasurement counter).tb.list s.tb.band).complete = (s.tb.list s.tb.band).complete
        ∧ (if (∃ e ∈ (s.tb.list s.tb.band).entries, e.freq = s.tb.freq) ∨ 40 ≤ (s.tb.list s.tb.band).entries.length then
            (s.actOnMeasurement counter).tb.list s.tb.band = s.tb.list s.tb.band
          else ∀ e, e ∈ ((s.actOnMeasurement counter).tb.list s.tb.band).entries ↔
            e = ⟨s.tb.freq, s.tb.level⟩ ∨ e ∈ (s.tb.list s.tb.band).entries)
    else
      ∃ stage freq,
        (if nextChannel s.cl.values.plan s.tb.band s.tb.freq op.direction = op.start then stage = .returning ∧ freq = op.start
        else stage = .stepping ∧ freq = nextChannel s.cl.values.plan s.tb.band s.tb.freq op.direction)
        ∧ (s.actOnMeasurement counter).tb.state = .settling ∧ (s.actOnMeasurement counter).tb.freq = freq
        ∧ (s.actOnMeasurement counter).tb.op = some { op with stage := stage, target := some freq })

/-! ## The preset store (chapter 10) -/

/-- Accepted PRESET STORE and PRESET CLEAR (R166, R168, R169): ACCEPTED is offered and the entry goes to the tail of the queue; an engine that may
begin takes it from an empty queue. A STORE, and a CLEAR whose index entry names a record, mark the append slot WRITING and take the next sequence;
the record noted for the commit is LIVE and carries the entry's number, with the band, frequency and name of the STORE, or the cleared flag, the band
and frequency of the record cleared and an empty name; the slot that the index names is noted as the previous record. In a full sector the entry
waits for a compaction. A CLEAR with no index entry is answered DONE and needs no record. -/
def Obligations.StoreRequestsAreAccepted : Prop :=
  ∀ (k : Station) (p : List Byte) (z : Zone) (number : Fin 30) (s : State), s.takes = true → addressedTo s.own p = true →
    s.hasRoom = true → requesterZone p = some z → presetAt p = some number → s.cl.values.fixedCount < number.val + 1 →
    s.ps.queue.length < 4 →
    (∀ name, nameAt p = some name → s.cl.values.tunerFitted = true → s.tb.state = .listening → s.tb.op = none →
      ∃ t entry, exec (.presetStore k p) s = .next t ∧ entry = .store number s.tb.band s.tb.freq name ⟨k, z⟩
        ∧ t.replied ⟨k, z⟩ .presetStore .accepted none
        ∧ (s.engineMayBegin = false → t.ps = { s.ps with queue := s.ps.queue ++ [entry] })
        ∧ (s.engineMayBegin = true → s.ps.compaction = none → s.ps.queue = [] →
            s.programs t entry (match s.ps.appendRef with
              | none => none
              | some slot => some
                { entry := entry, slot := slot, previous := s.ps.index[number]
                  record :=
                    { state := stateByteLive, number := BitVec.ofNat 8 (number.val + 1), sequence := s.ps.nextSequence,
                      band := bandByte s.tb.band, freq := BitVec.ofNat 24 s.tb.freq, cleared := 0xFF,
                      nameLength := BitVec.ofNat 8 name.length, name := Vector.ofFn fun i => name.getD i.val 0xFF } }))
        ∧ ChangesOnly [.lc, .pt, .ps, .cr] s t)
    ∧ (∃ t entry, exec (.presetClear k p) s = .next t ∧ entry = .clear number ⟨k, z⟩
        ∧ t.replied ⟨k, z⟩ .presetClear .accepted none
        ∧ (s.engineMayBegin = false → t.ps = { s.ps with queue := s.ps.queue ++ [entry] })
        ∧ (s.engineMayBegin = true → s.ps.compaction = none → s.ps.queue = [] →
            match s.ps.index[number] with
            | none => t.ps = s.ps ∧ (s.lc.queue.length < 7 → t.replied ⟨k, z⟩ .presetClear .done none)
            | some old =>
              s.programs t entry (match s.ps.appendRef with
                | none => none
                | some slot => some
                  { entry := entry, slot := slot, previous := some old
                    record :=
                      { state := stateByteLive, number := BitVec.ofNat 8 (number.val + 1), sequence := s.ps.nextSequence,
                        band := bandByte (slotAt s.ps.sectors old).readBand, freq := (slotAt s.ps.sectors old).freq, cleared := 0x00,
                        nameLength := 0, name := Vector.replicate 8 0xFF } }))
        ∧ ChangesOnly [.lc, .pt, .ps, .cr] s t)

/-- The tests of PRESET STORE and PRESET CLEAR (R166), in their order: the first that fails gives the outcome of the REPLY, and the store stands.
The zone of a requester that has none in range is the model's free value (the log's row 10). -/
def Obligations.StoreRequestsAreTested : Prop :=
  ∀ (k : Station) (p : List Byte) (outcome : ReplyOutcome) (s : State) (c : Instr) (kind : RequestKind) (named stores : Bool),
    s.takes = true → addressedTo s.own p = true → s.hasRoom = true →
    (c, kind, named, stores) ∈
      [(Instr.presetStore k p, RequestKind.presetStore, (nameAt p).isSome, true),
        (Instr.presetClear k p, RequestKind.presetClear, true, false)] →
    (if requesterZone p = none ∨ presetAt p = none ∨ named = false then outcome = .badValue
    else if (presetAt p).any (fun n => n.val + 1 ≤ s.cl.values.fixedCount) = true then outcome = .protectedPreset
    else if stores = true ∧ s.cl.values.tunerFitted = false then outcome = .noTuner
    else if stores = true ∧ (s.tb.state ≠ .listening ∨ s.tb.op ≠ none) then outcome = .busy
    else 4 ≤ s.ps.queue.length ∧ outcome = .queueFull) →
    ∃ t, exec c s = .next t ∧ t.refused k p kind outcome ∧ ChangesOnly [.lc, .pt, .cr, .draws] s t

/-- Reads (R172, R173): a PRESET READ enters the read list (served at once in IDLE, suspending a step in progress) or is answered BAD_VALUE or BUSY;
service begins at the end of the suspend delay; the completion of a PRESET READ offers the record that the index then names, or EMPTY, and the
completion of the last read resumes the suspended step. The time left at a suspension and the zone of a requester that has none in range are the
model's free values (the log's rows 10 and 11). -/
def Obligations.ReadsAreServed : Prop :=
  ∀ s : State,
    (∀ (k : Station) (p : List Byte), s.takes = true → addressedTo s.own p = true → s.hasRoom = true →
      ∃ t, exec (.presetRead k p) s = .next t
        ∧ (match requesterZone p, presetAt p with
          | some z, some number =>
            if s.ps.reads.length < 16 then
              t.ps.reads = s.ps.reads ++ [⟨number, .presetRead ⟨k, z⟩⟩]
                ∧ (s.ps.engine = .idle → t.ps.engine = .idle ∧ t.ps.readInService = true)
                ∧ (∀ step, s.ps.engine = .running step → t.ps.engine = .suspended step ∧ t.ps.remaining ≤ s.ps.remaining)
                ∧ (∀ step, s.ps.engine = .suspended step → t.ps.engine = .suspended step ∧ t.ps.remaining = s.ps.remaining)
            else t.refused k p .presetRead .busy ∧ t.ps = s.ps
          | _, _ => t.refused k p .presetRead .badValue ∧ t.ps = s.ps)
        ∧ ChangesOnly [.lc, .pt, .ps, .cr, .draws] s t)
    ∧ (∀ step, s.ps.engine = .suspended step → s.ps.reads ≠ [] →
      exec .readSuspendDelayEnd s = .next { s with ps := { s.ps with readInService := true } })
    ∧ (∀ number requester rest, s.ps.readInService = true → s.ps.reads = ⟨number, .presetRead requester⟩ :: rest → s.hasRoom = true →
      ∃ t, exec .readComplete s = .next t
        ∧ (match s.ps.index[number] with
          | none => t.replied requester .presetRead .empty none
          | some ref =>
            t.queued (.presetData
              { requester := requester, preset := number.val + 1, band := (slotAt s.ps.sectors ref).readBand,
                freq := (slotAt s.ps.sectors ref).freq.toNat, name := (slotAt s.ps.sectors ref).readName }))
        ∧ (∀ step, s.ps.engine = .suspended step →
            t.ps = { s.ps with
              reads := rest
              readInService := rest != []
              engine := if rest = [] then .running step else .suspended step })
        ∧ ChangesOnly [.lc, .pt, .ps, .cr] s t)

/-- The record steps (R169, R170): the commit gives the slot the record noted at the start, whose LIVE state makes the slot LIVE, changes the index
and offers DONE, and supersedes a previous record in the step that follows; where the queue is empty and no compaction is present the engine is then
IDLE. -/
def Obligations.RecordsAreProgrammed : Prop :=
  ∀ (p : Programming) (s : State), s.ps.current = some p → s.hasRoom = true →
    (s.ps.engine = .running .programming →
      ∃ t, exec .programmingCommit s = .next t ∧ t.replied p.entry.requester p.entry.kind .done none
        ∧ (p.previous.isSome = true ∨ s.ps.queue = [] ∧ s.ps.compaction = none →
            t.ps.sectors = writeSlot s.ps.sectors p.slot p.record
              ∧ (p.record.state = stateByteLive → (slotAt t.ps.sectors p.slot).slotState = .live)
              ∧ t.ps.index = s.ps.index.set p.entry.number (if p.record.isCleared = true then none else some p.slot)
              ∧ t.ps.engine = (if p.previous.isSome = true then .running .superseding else .idle))
        ∧ ChangesOnly [.ps, .lc, .cr, .pt] s t)
    ∧ (∀ old, s.ps.engine = .running .superseding → p.previous = some old → s.ps.queue = [] → s.ps.compaction = none →
      ∃ t, exec .supersedingEnd s = .next t
        ∧ t.ps.sectors = writeSlot s.ps.sectors old { slotAt s.ps.sectors old with state := stateByteSuperseded }
        ∧ t.ps.index = s.ps.index ∧ t.ps.engine = .idle ∧ ChangesOnly [.ps, .lc, .cr, .pt] s t)

/-- The steps of a compaction (R171, R168) while the supply is LOW, so that no further step begins: the erase leaves an erased spare and takes the
copy list, a copy is LIVE in the spare's next slot with every other field of its record, and the header makes the spare valid with the next
generation and switches the index to the copies. At a NORMAL supply with no read the step that follows the erase begins at once. That a copy takes
the bytes of its record as they stand is the model's choice (the log's row 66). -/
def Obligations.CompactionSteps : Prop :=
  ∀ (c : Compaction) (s : State), s.ps.compaction = some c →
    (s.ps.engine = .running .erasing →
      ∃ t c', exec .erasingEnd s = .next t ∧ t.ps.compaction = some c'
        ∧ c' = { c with copyList := s.ps.index.toList.filterMap id, copied := 0,
                        next := if s.ps.index.toList.filterMap id = [] then .header else .copying }
        ∧ (s.sm = .low → t.ps.sectors = s.ps.sectors.set c.spare Sector.erased ∧ t.ps.engine = .idle)
        ∧ (s.inReset = false → s.sm = .normal → s.ps.recoveryEnded = true → s.ps.reads = [] → t.ps.engine = .running c'.next)
        ∧ t.ps.index = s.ps.index ∧ ChangesOnly [.ps, .lc, .cr, .pt] s t)
    ∧ (∀ source, s.ps.engine = .running .copying → s.sm = .low → c.copyList[c.copied]? = some source →
      ∃ t, exec .copyingEnd s = .next t
        ∧ t.ps.sectors = writeSlot s.ps.sectors { sector := c.spare, slot := Fin.ofNat 32 c.copied }
            { slotAt s.ps.sectors source with state := stateByteLive }
        ∧ t.ps.compaction = some { c with copied := c.copied + 1,
                                          next := if c.copied + 1 < c.copyList.length then .copying else .header }
        ∧ t.ps.index = s.ps.index ∧ t.ps.engine = .idle ∧ ChangesOnly [.ps, .lc, .cr, .pt] s t)
    ∧ (s.ps.engine = .running .header → s.sm = .low →
      ∃ t, exec .headerEnd s = .next t
        ∧ t.ps.sectors = s.ps.sectors.set c.spare
            { s.ps.sectors[c.spare] with
              mark := 0xA5
              generation := match activeSector s.ps.sectors with
                | some a => if (s.ps.sectors[a]).generation = 4294967295 then 1 else (s.ps.sectors[a]).generation + 1
                | none => 1 }
        ∧ (∀ n : Fin 30, t.ps.index[n] = (s.ps.index[n]).map c.copyOf)
        ∧ t.ps.compaction = none ∧ t.ps.engine = .idle ∧ ChangesOnly [.ps, .lc, .cr, .pt] s t)

/-! ## Requests and conditions (chapter 11) -/

/-- STATUS QUERY and LIST READ (R161, R178, R180): the STATUS of the state at the take, or the page of the list as it stands, with the refusals; no
part but the queue changes. The zone of a requester that has none in range is the model's free value (the log's row 10). -/
def Obligations.QueriesAreAnswered : Prop :=
  ∀ (k : Station) (p : List Byte) (s : State), s.takes = true → addressedTo s.own p = true → s.hasRoom = true → s.quiet = true →
    (∃ t, exec (.statusQuery k p) s = .next t
      ∧ (if (requesterZone p).isSome = true then t.queued (.status s.statusOf) else t.refused k p .statusQuery .badValue)
      ∧ ChangesOnly [.lc, .pt, .draws] s t)
    ∧ (∃ t, exec (.listRead k p) s = .next t
      ∧ (if s.cl.values.tunerFitted = false then t.refused k p .listRead .noTuner
        else match requesterZone p, listReadFields p with
          | some z, some (band, page) =>
            t.queued (.listPage
              { requester := ⟨k, z⟩, band := band, page := page, complete := (s.tb.list band).complete,
                count := (s.tb.list band).entries.length,
                entries := (((s.tb.list band).entries.drop (10 * page)).take 10).map fun e =>
                  ((e.freq - lowestChannel s.cl.values.plan band) / channelStep s.cl.values.plan band, e.level) })
          | _, _ => t.refused k p .listRead .badValue)
      ∧ ChangesOnly [.lc, .pt, .draws] s t)

/-! ## Reset and joining (chapter 12) -/

/-- RESET (R186, R2, R3, R11, R12, R19, R34, R49, R67, R74, R81, R84, R93, R106, R122, R125, R138, R175, R182): the part is held in reset with the values that
the manual gives, and the preset sectors stay as they stand unless an erase is cut short. What a cut erase leaves is the model's free value (the
log's row 12). -/
def Obligations.ResetLeavesTheResetValues : Prop :=
  ∀ (cause : ResetCause) (s : State),
    ∃ t, exec (.reset cause) s = .next t ∧ t.inReset = true ∧ t.attnLow = false
      ∧ t.rt.roundNumber = none ∧ t.rt.discipline = .free ∧ t.rt.trim = 0 ∧ t.rt.isSender = false ∧ t.rt.takeover = .stopped
      ∧ t.lc.queue = [] ∧ t.lc.sendFlag = false ∧ t.lc.deferredPresence = none ∧ t.lc.deferredStatus = none
      ∧ (∀ i j : Fin 8, (t.mm.active.rows[i])[j] = .zero ∧ (t.mm.pending.rows[i])[j] = .zero) ∧ t.mm.dirty = false
      ∧ t.mm.active.layout = 0 ∧ t.mm.active.effective = 0 ∧ t.mm.pending.layout = 0 ∧ t.mm.pending.effective = 0
      ∧ t.pt.mode = .joining ∧ t.pt.joinFlag = true ∧ (∀ k : Station, t.pt.entries[k] = none)
      ∧ (∀ i : Fin 24, t.st[i] = none) ∧ (∀ src, (t.sp.get src).state = .undemanded)
      ∧ t.sr.state = .idle ∧ t.sr.subscription = none ∧ t.sr.target = none
      ∧ (∀ z : Zone, t.zt.records[z] = { program := none, listening := .surround, volume := 40, mute := false, standby := true })
      ∧ (∀ id, (t.ir.get id).state = .noSignal ∧ (t.ir.get id).rateClass = none) ∧ t.pd.state = .off ∧ t.sm = .low
      ∧ (∀ n : OutputNo, t.om.outputs[n].state = .off ∧ t.om.outputs[n].ramp = 0 ∧ t.om.outputs[n].atten = 40
          ∧ t.om.outputs[n].overload = 0 ∧ t.om.outputs[n].decay = 0 ∧ t.om.outputs[n].recovery = 0 ∧ t.om.outputs[n].width = 128
          ∧ t.om.outputs[n].roleStatus = .none ∧ t.om.outputs[n].enabled = false)
      ∧ t.tb.state = .off ∧ t.tb.op = none ∧ t.tb.holders = [] ∧ t.tb.fmList.entries = [] ∧ t.tb.amList.entries = []
      ∧ t.ps.queue = [] ∧ t.ps.reads = [] ∧ t.ps.engine = .idle ∧ t.ps.compaction = none
      ∧ (s.ps.cutStep ≠ some .erasing → t.ps.sectors = s.ps.sectors)
      ∧ t.cl.imageRead = false ∧ t.cl.valid = false ∧ t.cl.joined = false ∧ (∀ n : OutputNo, t.cl.overrides[n] = none)
      ∧ (∀ k, t.cr.holds k = true ↔ k = .clockUnlocked ∨ k = .supplyLow)

/-- LEAVE_RESET and IMAGE_READ (R140, R186, R187, R4, R146): the part leaves reset at the end of the last cause, with the straps as its station number
and the MUTE line read; the image is read once, a valid one gives its values and an invalid one the defaults with CONFIG_INVALID, and an IMAGE_READ
after the first changes nothing. -/
def Obligations.ResetEndsAndTheImageIsRead : Prop :=
  ∀ s : State,
    (∀ straps, s.rc.powerOn = true → s.rc.nReset = false →
      ∃ t, exec (.leaveReset .powerOn straps) s = .next t ∧ t.inReset = false ∧ t.cl.station = straps
        ∧ t.cr.holds .muteLine = s.pins.mute ∧ ChangesOnly [.rc, .cl, .cr] s t)
    ∧ (∀ straps, s.rc.powerOn = false → s.rc.nReset = true →
      ∃ t, exec (.leaveReset .nReset straps) s = .next t ∧ t.inReset = false ∧ t.cl.station = straps
        ∧ t.cr.holds .muteLine = s.pins.mute ∧ ChangesOnly [.rc, .cl, .cr] s t)
    ∧ (∀ cause straps, s.rc.powerOn = true → s.rc.nReset = true →
      ∃ t, exec (.leaveReset cause straps) s = .next t ∧ t.inReset = true ∧ ChangesOnly [.rc] s t)
    ∧ (∀ image, s.cl.imageRead = true → exec (.imageRead image) s = .next s)
    ∧ (∀ image, s.inReset = false → s.cl.imageRead = false →
      ∃ t, exec (.imageRead image) s = .next t ∧ t.cl.imageRead = true
        ∧ (match readImage image with
          | some v => t.cl.values = v ∧ t.cl.valid = true ∧ t.cr.holds .configInvalid = false
          | none =>
            t.cl.values.zone = 0 ∧ (∀ n : OutputNo, t.cl.values.roles[n] = none) ∧ t.cl.values.tunerFitted = false
              ∧ t.cl.values.fixedCount = 0 ∧ t.cl.values.watchdogLimit = 4 ∧ t.cl.values.cutMode = .ramp ∧ t.cl.values.d = 3
              ∧ t.cl.values.plan = .a ∧ t.cl.values.fmThreshold = 40 ∧ t.cl.values.amThreshold = 30
              ∧ t.cl.valid = false ∧ t.cr.holds .configInvalid = true)
        ∧ t.rt.adoptedD = t.cl.values.d ∧ t.tb.band = .fm ∧ t.tb.freq = lowestChannel t.cl.values.plan .fm
        ∧ ChangesOnly [.cl, .rt, .tb, .cr, .lc, .pt] s t)

/-- The end of recovery and the entry to JOINING (R165, R175, R176, R188): the index names the newest LIVE record of each number that is not
cleared, a memory without a valid header holds a compaction of sector 0; at the entry the join count is 0, the takeover timer starts, an input with
a clock enters ACQUIRING, and a STATUS is offered. That JOIN_START is a step of its own, and which record and sequence count as newest where R163
orders none, is the model's choice (the log's rows 28 and 56). -/
def Obligations.RecoveryEndsAndJoiningStarts : Prop :=
  ∀ s : State, s.inReset = false →
    (s.ps.recoveryEnded = false → s.ps.queue = [] → s.ps.compaction = none →
      ∃ t, exec .recoveryEnd s = .next t ∧ t.ps.recoveryEnded = true ∧ t.ps.nextSequence = recoveredSequence s.ps.sectors
        ∧ (match activeSector s.ps.sectors with
          | some a => (∀ n : Fin 30, t.ps.index[n] = indexEntry s.ps.sectors a n) ∧ t.ps.compaction = none ∧ t.ps.sectors = s.ps.sectors
          | none => (∀ n : Fin 30, t.ps.index[n] = none) ∧ t.ps.compaction = some { spare := 0, copyList := [], copied := 0, next := .erasing })
        ∧ ChangesOnly [.ps, .lc, .cr, .pt] s t)
    ∧ (s.cl.imageRead = true → s.ps.recoveryEnded = true → s.cl.joined = false → s.lc.queue = [] →
      ∃ t, exec .joinStart s = .next t ∧ t.joined = true ∧ t.pt.mode = .joining ∧ t.pt.joinCount = 0 ∧ t.rt.takeover = .fromJoin
        ∧ (∀ id, s.pins.clock id = true → (t.ir.get id).state = .acquiring) ∧ t.queued (.status t.statusOf)
        ∧ ChangesOnly [.cl, .pt, .rt, .ir, .sp, .lc, .cr] s t)

/-- The end of the join window (R190): the join count stands at 80, the marks are cleared, the mode is the one that the tables call for, and the
zone records, the slot table and the role holders stand. That the command performs the last step of the count alone is the model's choice (the log's
row 1). -/
def Obligations.JoinWindowEnds : Prop :=
  ∀ s : State, s.joined = true → s.pt.mode = .joining → 79 ≤ s.pt.joinCount →
    ∃ t, exec .joinWindowEnd s = .next t
      ∧ t.pt.joinCount = 80 ∧ (∀ z : Zone, t.zt.marks[z] = ZoneMarks.clear) ∧ t.zt.records = s.zt.records ∧ t.zt.holders = s.zt.holders
      ∧ t.pt.mode =
        (if s.ownRecord.standby = false then .active
        else if (s.demanded .a || s.demanded .b || s.demanded .t || ownsRun s.st s.own) = true then .serving
        else .standby)
      ∧ (t.pt.mode = .active → ∀ n : OutputNo, s.om.outputs[n].state = .off → s.om.outputs[n].overload < 4 →
          s.pins.faultLines[n] = false → t.om.outputs[n].state = .silent ∨ t.om.outputs[n].state = .rampUp)
      ∧ ChangesOnly (.zt :: modeParts) s t

/-- The invariants hold in the state after reset. Where the manual gives no reset value the state holds the model's (the log's rows 4 and 15). -/
def Obligations.InvariantsHoldAtReset : Prop :=
  State.reset.lc.wf ∧ SlotTable.wf State.reset.st ∧ State.reset.zonesWf ∧ State.reset.holdersWf ∧ State.reset.outputsWf ∧ State.reset.conditionsWf
    ∧ State.reset.quiet = true

/-! ## Wire formats (chapter 13) -/

/-- What a station sends, every station reads (13.2): a mark, a slot, and the body of a message with at most 24 payload bytes, which no station
voids, which is taken as its kind's command, and whose fields the owners of CLAIM, RELEASE, ZONE STATE and PRESENCE find as they were sent. A body
whose code names no kind, or whose class is not its kind's, is taken as a message of an unknown kind (R31, R192). That the bits that a layout does not
name are sent as 0 and ignored on receipt is the model's choice (the log's row 67). -/
def Obligations.SentFormatsAreRead : Prop :=
  (∀ m : MarkFields, m.d < 256 → readMark (BitVec.ofNat 3 m.sender.val) (encodeMark m) = some m)
  ∧ (∀ (h : SlotHeader) (data : List Byte) (slot : SlotNo), data.length = 144 → h.part < widthOf h.kind → h.part ≤ slot.val →
      slot.val - h.part + widthOf h.kind ≤ 24 → readSlot slot (encodeSlot h data) = some (h, data))
  ∧ (∀ m : Msg, (encodePayload m).length ≤ 24 → bodyIsVoid (encodeBody m) = false)
  ∧ (∀ (m : Msg) (sender : Station), (encodePayload m).length ≤ 24 →
      commandOfBody ⟨BitVec.ofNat 3 m.cls, sender⟩ (encodeBody m) =
        (match m with
        | .claim .. => some (Instr.claim sender (encodePayload m))
        | .release _ => some (.release sender (encodePayload m))
        | .zoneState _ => some (.zoneState sender (encodePayload m))
        | .reply _ => some (.reply sender (encodePayload m))
        | .listPage _ => some (.listPage sender (encodePayload m))
        | .presetData _ => some (.presetData sender (encodePayload m))
        | .status _ => some (.status sender (encodePayload m))
        | .presence _ => some (.presence sender (encodePayload m))))
  ∧ (∀ (field : ArbField) (body : List Byte), bodyIsVoid body = false →
      let code := (body.headD 0).toNat / 8
      let cls := field.cls.toNat
      (code = 0 ∨ 20 ≤ code ∨ code ∈ [1, 2] ∧ cls ≠ 0 ∨ code ∈ [3, 4, 5] ∧ cls ≠ 1
        ∨ code ∈ [6, 7, 8, 9, 10, 11, 12, 13, 14] ∧ cls ≠ 2 ∨ code ∈ [15, 16, 17, 18] ∧ cls ≠ 3 ∨ code = 19 ∧ cls ≠ 4) →
      commandOfBody field body = some (.unknownKind field (BitVec.ofNat 5 code)))
  ∧ (∀ stream kind start, claimFields (encodePayload (.claim stream kind start)) = some (stream, kind, start))
  ∧ (∀ stream, releaseField (encodePayload (.release stream)) = some stream)
  ∧ (∀ records : Vector ZoneRecord 4, (∀ z : Zone, (records[z]).wf) → zoneStateFields (encodePayload (.zoneState records)) = some records)
  ∧ (∀ content, presenceFields (encodePayload (.presence content)) = some content)
end

