-- ==== Sys2Proof/Laws/State.lean ====
section
/-! SUPPORT. Laws of the state: the named updates of the state: one lemma per update, which says what it leaves unchanged. -/

namespace Sys2Proof.Machine

@[simp] theorem State.setOutput_frame (s : State) (n : OutputNo) (o : OutputRecord) :
    (s.setOutput n o).rt = s.rt ∧ (s.setOutput n o).lc = s.lc ∧ (s.setOutput n o).pt = s.pt ∧ (s.setOutput n o).st = s.st ∧
      (s.setOutput n o).sp = s.sp ∧ (s.setOutput n o).sr = s.sr ∧ (s.setOutput n o).zt = s.zt ∧ (s.setOutput n o).ir = s.ir ∧
      (s.setOutput n o).pd = s.pd ∧ (s.setOutput n o).mm = s.mm ∧ (s.setOutput n o).sm = s.sm ∧ (s.setOutput n o).tb = s.tb ∧
      (s.setOutput n o).ps = s.ps ∧ (s.setOutput n o).cl = s.cl ∧ (s.setOutput n o).cr = s.cr ∧ (s.setOutput n o).rc = s.rc ∧
      (s.setOutput n o).pins = s.pins ∧ (s.setOutput n o).freeDraws = s.freeDraws ∧ (s.setOutput n o).pending = s.pending :=
  ⟨rfl, rfl, rfl, rfl, rfl, rfl, rfl, rfl, rfl, rfl, rfl, rfl, rfl, rfl, rfl, rfl, rfl, rfl, rfl⟩

@[simp] theorem State.holdRamp_frame (s : State) (n : OutputNo) :
    (s.holdRamp n).rt = s.rt ∧ (s.holdRamp n).lc = s.lc ∧ (s.holdRamp n).pt = s.pt ∧ (s.holdRamp n).st = s.st ∧
      (s.holdRamp n).sp = s.sp ∧ (s.holdRamp n).sr = s.sr ∧ (s.holdRamp n).zt = s.zt ∧ (s.holdRamp n).ir = s.ir ∧
      (s.holdRamp n).pd = s.pd ∧ (s.holdRamp n).mm = s.mm ∧ (s.holdRamp n).sm = s.sm ∧ (s.holdRamp n).tb = s.tb ∧
      (s.holdRamp n).ps = s.ps ∧ (s.holdRamp n).cl = s.cl ∧ (s.holdRamp n).cr = s.cr ∧ (s.holdRamp n).rc = s.rc ∧
      (s.holdRamp n).pins = s.pins ∧ (s.holdRamp n).freeDraws = s.freeDraws ∧ (s.holdRamp n).pending = s.pending :=
  ⟨rfl, rfl, rfl, rfl, rfl, rfl, rfl, rfl, rfl, rfl, rfl, rfl, rfl, rfl, rfl, rfl, rfl, rfl, rfl⟩

@[simp] theorem State.holdSteps_frame (s : State) (n : OutputNo) :
    (s.holdSteps n).rt = s.rt ∧ (s.holdSteps n).lc = s.lc ∧ (s.holdSteps n).pt = s.pt ∧ (s.holdSteps n).st = s.st ∧
      (s.holdSteps n).sp = s.sp ∧ (s.holdSteps n).sr = s.sr ∧ (s.holdSteps n).zt = s.zt ∧ (s.holdSteps n).ir = s.ir ∧
      (s.holdSteps n).pd = s.pd ∧ (s.holdSteps n).mm = s.mm ∧ (s.holdSteps n).sm = s.sm ∧ (s.holdSteps n).tb = s.tb ∧
      (s.holdSteps n).ps = s.ps ∧ (s.holdSteps n).cl = s.cl ∧ (s.holdSteps n).cr = s.cr ∧ (s.holdSteps n).rc = s.rc ∧
      (s.holdSteps n).pins = s.pins ∧ (s.holdSteps n).freeDraws = s.freeDraws ∧ (s.holdSteps n).pending = s.pending :=
  ⟨rfl, rfl, rfl, rfl, rfl, rfl, rfl, rfl, rfl, rfl, rfl, rfl, rfl, rfl, rfl, rfl, rfl, rfl, rfl⟩

@[simp] theorem State.holdStepsIf_frame (s : State) (n : OutputNo) (b : Bool) :
    (s.holdStepsIf n b).rt = s.rt ∧ (s.holdStepsIf n b).lc = s.lc ∧ (s.holdStepsIf n b).pt = s.pt ∧ (s.holdStepsIf n b).st = s.st ∧
      (s.holdStepsIf n b).sp = s.sp ∧ (s.holdStepsIf n b).sr = s.sr ∧ (s.holdStepsIf n b).zt = s.zt ∧ (s.holdStepsIf n b).ir = s.ir ∧
      (s.holdStepsIf n b).pd = s.pd ∧ (s.holdStepsIf n b).mm = s.mm ∧ (s.holdStepsIf n b).sm = s.sm ∧ (s.holdStepsIf n b).tb = s.tb ∧
      (s.holdStepsIf n b).ps = s.ps ∧ (s.holdStepsIf n b).cl = s.cl ∧ (s.holdStepsIf n b).cr = s.cr ∧ (s.holdStepsIf n b).rc = s.rc ∧
      (s.holdStepsIf n b).pins = s.pins ∧ (s.holdStepsIf n b).freeDraws = s.freeDraws ∧ (s.holdStepsIf n b).pending = s.pending := by
  simp only [State.holdStepsIf]; split <;> simp

@[simp] theorem State.mapOutputs_frame (s : State) (f : OutputNo → OutputRecord → OutputRecord) :
    (s.mapOutputs f).rt = s.rt ∧ (s.mapOutputs f).lc = s.lc ∧ (s.mapOutputs f).pt = s.pt ∧ (s.mapOutputs f).st = s.st ∧
      (s.mapOutputs f).sp = s.sp ∧ (s.mapOutputs f).sr = s.sr ∧ (s.mapOutputs f).zt = s.zt ∧ (s.mapOutputs f).ir = s.ir ∧
      (s.mapOutputs f).pd = s.pd ∧ (s.mapOutputs f).mm = s.mm ∧ (s.mapOutputs f).sm = s.sm ∧ (s.mapOutputs f).tb = s.tb ∧
      (s.mapOutputs f).ps = s.ps ∧ (s.mapOutputs f).cl = s.cl ∧ (s.mapOutputs f).cr = s.cr ∧ (s.mapOutputs f).rc = s.rc ∧
      (s.mapOutputs f).pins = s.pins ∧ (s.mapOutputs f).freeDraws = s.freeDraws ∧ (s.mapOutputs f).pending = s.pending :=
  ⟨rfl, rfl, rfl, rfl, rfl, rfl, rfl, rfl, rfl, rfl, rfl, rfl, rfl, rfl, rfl, rfl, rfl, rfl, rfl⟩

@[simp] theorem State.setCondition_frame (s : State) (k : Condition) (on : Bool) :
    (s.setCondition k on).rt = s.rt ∧ (s.setCondition k on).lc = s.lc ∧ (s.setCondition k on).pt = s.pt ∧
      (s.setCondition k on).st = s.st ∧ (s.setCondition k on).sp = s.sp ∧ (s.setCondition k on).sr = s.sr ∧
      (s.setCondition k on).zt = s.zt ∧ (s.setCondition k on).ir = s.ir ∧ (s.setCondition k on).pd = s.pd ∧
      (s.setCondition k on).mm = s.mm ∧ (s.setCondition k on).om = s.om ∧ (s.setCondition k on).sm = s.sm ∧
      (s.setCondition k on).tb = s.tb ∧ (s.setCondition k on).ps = s.ps ∧ (s.setCondition k on).cl = s.cl ∧
      (s.setCondition k on).rc = s.rc ∧ (s.setCondition k on).pins = s.pins ∧ (s.setCondition k on).freeDraws = s.freeDraws ∧
      (s.setCondition k on).pending = s.pending :=
  ⟨rfl, rfl, rfl, rfl, rfl, rfl, rfl, rfl, rfl, rfl, rfl, rfl, rfl, rfl, rfl, rfl, rfl, rfl, rfl⟩

@[simp] theorem State.offer_frame (s : State) (m : Msg) :
    (s.offer m).rt = s.rt ∧ (s.offer m).pt = s.pt ∧ (s.offer m).st = s.st ∧ (s.offer m).sp = s.sp ∧ (s.offer m).sr = s.sr ∧
      (s.offer m).zt = s.zt ∧ (s.offer m).ir = s.ir ∧ (s.offer m).pd = s.pd ∧ (s.offer m).mm = s.mm ∧ (s.offer m).om = s.om ∧
      (s.offer m).sm = s.sm ∧ (s.offer m).tb = s.tb ∧ (s.offer m).ps = s.ps ∧ (s.offer m).cl = s.cl ∧ (s.offer m).cr = s.cr ∧
      (s.offer m).rc = s.rc ∧ (s.offer m).pins = s.pins ∧ (s.offer m).freeDraws = s.freeDraws ∧ (s.offer m).pending = s.pending :=
  ⟨rfl, rfl, rfl, rfl, rfl, rfl, rfl, rfl, rfl, rfl, rfl, rfl, rfl, rfl, rfl, rfl, rfl, rfl, rfl⟩

@[simp] theorem State.offerReply_frame (s : State) (r : Requester) (k : RequestKind) (o : ReplyOutcome) (v : Option Nat) :
    (s.offerReply r k o v).rt = s.rt ∧ (s.offerReply r k o v).pt = s.pt ∧ (s.offerReply r k o v).st = s.st ∧
      (s.offerReply r k o v).sp = s.sp ∧ (s.offerReply r k o v).sr = s.sr ∧ (s.offerReply r k o v).zt = s.zt ∧
      (s.offerReply r k o v).ir = s.ir ∧ (s.offerReply r k o v).pd = s.pd ∧ (s.offerReply r k o v).mm = s.mm ∧
      (s.offerReply r k o v).om = s.om ∧ (s.offerReply r k o v).sm = s.sm ∧ (s.offerReply r k o v).tb = s.tb ∧
      (s.offerReply r k o v).ps = s.ps ∧ (s.offerReply r k o v).cl = s.cl ∧ (s.offerReply r k o v).cr = s.cr ∧
      (s.offerReply r k o v).rc = s.rc ∧ (s.offerReply r k o v).pins = s.pins ∧ (s.offerReply r k o v).freeDraws = s.freeDraws ∧
      (s.offerReply r k o v).pending = s.pending :=
  ⟨rfl, rfl, rfl, rfl, rfl, rfl, rfl, rfl, rfl, rfl, rfl, rfl, rfl, rfl, rfl, rfl, rfl, rfl, rfl⟩

@[simp] theorem State.draw_frame (s : State) :
    (s.draw).rt = s.rt ∧ (s.draw).lc = s.lc ∧ (s.draw).pt = s.pt ∧ (s.draw).st = s.st ∧ (s.draw).sp = s.sp ∧ (s.draw).sr = s.sr ∧
      (s.draw).zt = s.zt ∧ (s.draw).ir = s.ir ∧ (s.draw).pd = s.pd ∧ (s.draw).mm = s.mm ∧ (s.draw).om = s.om ∧ (s.draw).sm = s.sm ∧
      (s.draw).tb = s.tb ∧ (s.draw).ps = s.ps ∧ (s.draw).cl = s.cl ∧ (s.draw).cr = s.cr ∧ (s.draw).rc = s.rc ∧ (s.draw).pins = s.pins ∧
      (s.draw).pending = s.pending :=
  ⟨rfl, rfl, rfl, rfl, rfl, rfl, rfl, rfl, rfl, rfl, rfl, rfl, rfl, rfl, rfl, rfl, rfl, rfl, rfl⟩

@[simp] theorem State.refuse_frame (s : State) (sender : Station) (payload : List Byte) (k : RequestKind) (o : ReplyOutcome) :
    (s.refuse sender payload k o).rt = s.rt ∧ (s.refuse sender payload k o).pt = s.pt ∧ (s.refuse sender payload k o).st = s.st ∧
      (s.refuse sender payload k o).sp = s.sp ∧ (s.refuse sender payload k o).sr = s.sr ∧ (s.refuse sender payload k o).zt = s.zt ∧
      (s.refuse sender payload k o).ir = s.ir ∧ (s.refuse sender payload k o).pd = s.pd ∧ (s.refuse sender payload k o).mm = s.mm ∧
      (s.refuse sender payload k o).om = s.om ∧ (s.refuse sender payload k o).sm = s.sm ∧ (s.refuse sender payload k o).tb = s.tb ∧
      (s.refuse sender payload k o).ps = s.ps ∧ (s.refuse sender payload k o).cl = s.cl ∧ (s.refuse sender payload k o).cr = s.cr ∧
      (s.refuse sender payload k o).rc = s.rc ∧ (s.refuse sender payload k o).pins = s.pins ∧
      (s.refuse sender payload k o).pending = s.pending :=
  ⟨rfl, rfl, rfl, rfl, rfl, rfl, rfl, rfl, rfl, rfl, rfl, rfl, rfl, rfl, rfl, rfl, rfl, rfl⟩

@[simp] theorem State.announce_frame (s : State) :
    (s.announce).rt = s.rt ∧ (s.announce).lc = s.lc ∧ (s.announce).st = s.st ∧ (s.announce).sp = s.sp ∧ (s.announce).sr = s.sr ∧
      (s.announce).zt = s.zt ∧ (s.announce).ir = s.ir ∧ (s.announce).pd = s.pd ∧ (s.announce).mm = s.mm ∧ (s.announce).om = s.om ∧
      (s.announce).sm = s.sm ∧ (s.announce).tb = s.tb ∧ (s.announce).ps = s.ps ∧ (s.announce).cl = s.cl ∧ (s.announce).cr = s.cr ∧
      (s.announce).rc = s.rc ∧ (s.announce).pins = s.pins ∧ (s.announce).freeDraws = s.freeDraws ∧ (s.announce).pending = s.pending :=
  ⟨rfl, rfl, rfl, rfl, rfl, rfl, rfl, rfl, rfl, rfl, rfl, rfl, rfl, rfl, rfl, rfl, rfl, rfl, rfl⟩

@[simp] theorem State.announceIf_frame (s : State) (b : Bool) :
    (s.announceIf b).rt = s.rt ∧ (s.announceIf b).lc = s.lc ∧ (s.announceIf b).st = s.st ∧ (s.announceIf b).sp = s.sp ∧
      (s.announceIf b).sr = s.sr ∧ (s.announceIf b).zt = s.zt ∧ (s.announceIf b).ir = s.ir ∧ (s.announceIf b).pd = s.pd ∧
      (s.announceIf b).mm = s.mm ∧ (s.announceIf b).om = s.om ∧ (s.announceIf b).sm = s.sm ∧ (s.announceIf b).tb = s.tb ∧
      (s.announceIf b).ps = s.ps ∧ (s.announceIf b).cl = s.cl ∧ (s.announceIf b).cr = s.cr ∧ (s.announceIf b).rc = s.rc ∧
      (s.announceIf b).pins = s.pins ∧ (s.announceIf b).freeDraws = s.freeDraws ∧ (s.announceIf b).pending = s.pending :=
  ⟨rfl, rfl, rfl, rfl, rfl, rfl, rfl, rfl, rfl, rfl, rfl, rfl, rfl, rfl, rfl, rfl, rfl, rfl, rfl⟩

@[simp] theorem State.reportStatus_frame (s : State) :
    (s.reportStatus).rt = s.rt ∧ (s.reportStatus).lc = s.lc ∧ (s.reportStatus).pt = s.pt ∧ (s.reportStatus).st = s.st ∧
      (s.reportStatus).sp = s.sp ∧ (s.reportStatus).sr = s.sr ∧ (s.reportStatus).zt = s.zt ∧ (s.reportStatus).ir = s.ir ∧
      (s.reportStatus).pd = s.pd ∧ (s.reportStatus).mm = s.mm ∧ (s.reportStatus).om = s.om ∧ (s.reportStatus).sm = s.sm ∧
      (s.reportStatus).tb = s.tb ∧ (s.reportStatus).ps = s.ps ∧ (s.reportStatus).cl = s.cl ∧ (s.reportStatus).rc = s.rc ∧
      (s.reportStatus).pins = s.pins ∧ (s.reportStatus).freeDraws = s.freeDraws ∧ (s.reportStatus).pending = s.pending :=
  ⟨rfl, rfl, rfl, rfl, rfl, rfl, rfl, rfl, rfl, rfl, rfl, rfl, rfl, rfl, rfl, rfl, rfl, rfl, rfl⟩

@[simp] theorem State.endMark_frame (s : State) :
    (s.endMark).rt = s.rt ∧ (s.endMark).pt = s.pt ∧ (s.endMark).st = s.st ∧ (s.endMark).sp = s.sp ∧ (s.endMark).sr = s.sr ∧
      (s.endMark).zt = s.zt ∧ (s.endMark).ir = s.ir ∧ (s.endMark).pd = s.pd ∧ (s.endMark).mm = s.mm ∧ (s.endMark).om = s.om ∧
      (s.endMark).sm = s.sm ∧ (s.endMark).tb = s.tb ∧ (s.endMark).ps = s.ps ∧ (s.endMark).cl = s.cl ∧ (s.endMark).cr = s.cr ∧
      (s.endMark).rc = s.rc ∧ (s.endMark).pins = s.pins ∧ (s.endMark).freeDraws = s.freeDraws ∧ (s.endMark).pending = s.pending :=
  ⟨rfl, rfl, rfl, rfl, rfl, rfl, rfl, rfl, rfl, rfl, rfl, rfl, rfl, rfl, rfl, rfl, rfl, rfl, rfl⟩

@[simp] theorem State.closeEvent_frame (s : State) :
    (s.closeEvent).rt = s.rt ∧ (s.closeEvent).st = s.st ∧ (s.closeEvent).sp = s.sp ∧ (s.closeEvent).sr = s.sr ∧
      (s.closeEvent).zt = s.zt ∧ (s.closeEvent).ir = s.ir ∧ (s.closeEvent).pd = s.pd ∧ (s.closeEvent).mm = s.mm ∧
      (s.closeEvent).om = s.om ∧ (s.closeEvent).sm = s.sm ∧ (s.closeEvent).tb = s.tb ∧ (s.closeEvent).ps = s.ps ∧
      (s.closeEvent).cl = s.cl ∧ (s.closeEvent).rc = s.rc ∧ (s.closeEvent).pins = s.pins ∧ (s.closeEvent).freeDraws = s.freeDraws ∧
      (s.closeEvent).pending = s.pending :=
  ⟨rfl, rfl, rfl, rfl, rfl, rfl, rfl, rfl, rfl, rfl, rfl, rfl, rfl, rfl, rfl, rfl, rfl⟩

@[simp] theorem State.closePosition_frame (s : State) :
    (s.closePosition).rt = s.rt ∧ (s.closePosition).st = s.st ∧ (s.closePosition).sp = s.sp ∧ (s.closePosition).sr = s.sr ∧
      (s.closePosition).zt = s.zt ∧ (s.closePosition).ir = s.ir ∧ (s.closePosition).pd = s.pd ∧ (s.closePosition).mm = s.mm ∧
      (s.closePosition).om = s.om ∧ (s.closePosition).sm = s.sm ∧ (s.closePosition).tb = s.tb ∧ (s.closePosition).ps = s.ps ∧
      (s.closePosition).cl = s.cl ∧ (s.closePosition).rc = s.rc ∧ (s.closePosition).pins = s.pins ∧
      (s.closePosition).freeDraws = s.freeDraws ∧ (s.closePosition).pending = s.pending :=
  ⟨rfl, rfl, rfl, rfl, rfl, rfl, rfl, rfl, rfl, rfl, rfl, rfl, rfl, rfl, rfl, rfl, rfl⟩

@[simp] theorem State.startTakeover_frame (s : State) :
    (s.startTakeover).lc = s.lc ∧ (s.startTakeover).pt = s.pt ∧ (s.startTakeover).st = s.st ∧ (s.startTakeover).sp = s.sp ∧
      (s.startTakeover).sr = s.sr ∧ (s.startTakeover).zt = s.zt ∧ (s.startTakeover).ir = s.ir ∧ (s.startTakeover).pd = s.pd ∧
      (s.startTakeover).mm = s.mm ∧ (s.startTakeover).om = s.om ∧ (s.startTakeover).sm = s.sm ∧ (s.startTakeover).tb = s.tb ∧
      (s.startTakeover).ps = s.ps ∧ (s.startTakeover).cl = s.cl ∧ (s.startTakeover).cr = s.cr ∧ (s.startTakeover).rc = s.rc ∧
      (s.startTakeover).pins = s.pins ∧ (s.startTakeover).freeDraws = s.freeDraws ∧ (s.startTakeover).pending = s.pending :=
  ⟨rfl, rfl, rfl, rfl, rfl, rfl, rfl, rfl, rfl, rfl, rfl, rfl, rfl, rfl, rfl, rfl, rfl, rfl, rfl⟩

@[simp] theorem State.rebuild_frame (s : State) :
    (s.rebuild).rt = s.rt ∧ (s.rebuild).lc = s.lc ∧ (s.rebuild).pt = s.pt ∧ (s.rebuild).st = s.st ∧ (s.rebuild).sp = s.sp ∧
      (s.rebuild).sr = s.sr ∧ (s.rebuild).zt = s.zt ∧ (s.rebuild).ir = s.ir ∧ (s.rebuild).pd = s.pd ∧ (s.rebuild).om = s.om ∧
      (s.rebuild).sm = s.sm ∧ (s.rebuild).tb = s.tb ∧ (s.rebuild).ps = s.ps ∧ (s.rebuild).cl = s.cl ∧ (s.rebuild).cr = s.cr ∧
      (s.rebuild).rc = s.rc ∧ (s.rebuild).pins = s.pins ∧ (s.rebuild).freeDraws = s.freeDraws ∧ (s.rebuild).pending = s.pending :=
  ⟨rfl, rfl, rfl, rfl, rfl, rfl, rfl, rfl, rfl, rfl, rfl, rfl, rfl, rfl, rfl, rfl, rfl, rfl, rfl⟩

@[simp] theorem State.rebuildIf_frame (s : State) (b : Bool) :
    (s.rebuildIf b).rt = s.rt ∧ (s.rebuildIf b).lc = s.lc ∧ (s.rebuildIf b).pt = s.pt ∧ (s.rebuildIf b).st = s.st ∧
      (s.rebuildIf b).sp = s.sp ∧ (s.rebuildIf b).sr = s.sr ∧ (s.rebuildIf b).zt = s.zt ∧ (s.rebuildIf b).ir = s.ir ∧
      (s.rebuildIf b).pd = s.pd ∧ (s.rebuildIf b).om = s.om ∧ (s.rebuildIf b).sm = s.sm ∧ (s.rebuildIf b).tb = s.tb ∧
      (s.rebuildIf b).ps = s.ps ∧ (s.rebuildIf b).cl = s.cl ∧ (s.rebuildIf b).cr = s.cr ∧ (s.rebuildIf b).rc = s.rc ∧
      (s.rebuildIf b).pins = s.pins ∧ (s.rebuildIf b).freeDraws = s.freeDraws ∧ (s.rebuildIf b).pending = s.pending :=
  ⟨rfl, rfl, rfl, rfl, rfl, rfl, rfl, rfl, rfl, rfl, rfl, rfl, rfl, rfl, rfl, rfl, rfl, rfl, rfl⟩

@[simp] theorem State.setPub_frame (s : State) (src : Source) (r : PubRecord) :
    (s.setPub src r).rt = s.rt ∧ (s.setPub src r).lc = s.lc ∧ (s.setPub src r).pt = s.pt ∧ (s.setPub src r).st = s.st ∧
      (s.setPub src r).sr = s.sr ∧ (s.setPub src r).zt = s.zt ∧ (s.setPub src r).ir = s.ir ∧ (s.setPub src r).pd = s.pd ∧
      (s.setPub src r).mm = s.mm ∧ (s.setPub src r).om = s.om ∧ (s.setPub src r).sm = s.sm ∧ (s.setPub src r).tb = s.tb ∧
      (s.setPub src r).ps = s.ps ∧ (s.setPub src r).cl = s.cl ∧ (s.setPub src r).cr = s.cr ∧ (s.setPub src r).rc = s.rc ∧
      (s.setPub src r).pins = s.pins ∧ (s.setPub src r).freeDraws = s.freeDraws ∧ (s.setPub src r).pending = s.pending :=
  ⟨rfl, rfl, rfl, rfl, rfl, rfl, rfl, rfl, rfl, rfl, rfl, rfl, rfl, rfl, rfl, rfl, rfl, rfl, rfl⟩

@[simp] theorem State.setStore_frame (s : State) (ps : PresetStore) :
    (s.setStore ps).rt = s.rt ∧ (s.setStore ps).lc = s.lc ∧ (s.setStore ps).pt = s.pt ∧ (s.setStore ps).st = s.st ∧
      (s.setStore ps).sp = s.sp ∧ (s.setStore ps).sr = s.sr ∧ (s.setStore ps).zt = s.zt ∧ (s.setStore ps).ir = s.ir ∧
      (s.setStore ps).pd = s.pd ∧ (s.setStore ps).mm = s.mm ∧ (s.setStore ps).om = s.om ∧ (s.setStore ps).sm = s.sm ∧
      (s.setStore ps).tb = s.tb ∧ (s.setStore ps).cl = s.cl ∧ (s.setStore ps).cr = s.cr ∧ (s.setStore ps).rc = s.rc ∧
      (s.setStore ps).pins = s.pins ∧ (s.setStore ps).freeDraws = s.freeDraws ∧ (s.setStore ps).pending = s.pending :=
  ⟨rfl, rfl, rfl, rfl, rfl, rfl, rfl, rfl, rfl, rfl, rfl, rfl, rfl, rfl, rfl, rfl, rfl, rfl, rfl⟩

@[simp] theorem State.setTuner_frame (s : State) (tb : Tuner) :
    (s.setTuner tb).rt = s.rt ∧ (s.setTuner tb).lc = s.lc ∧ (s.setTuner tb).pt = s.pt ∧ (s.setTuner tb).st = s.st ∧
      (s.setTuner tb).sp = s.sp ∧ (s.setTuner tb).sr = s.sr ∧ (s.setTuner tb).zt = s.zt ∧ (s.setTuner tb).ir = s.ir ∧
      (s.setTuner tb).pd = s.pd ∧ (s.setTuner tb).mm = s.mm ∧ (s.setTuner tb).om = s.om ∧ (s.setTuner tb).sm = s.sm ∧
      (s.setTuner tb).ps = s.ps ∧ (s.setTuner tb).cl = s.cl ∧ (s.setTuner tb).cr = s.cr ∧ (s.setTuner tb).rc = s.rc ∧
      (s.setTuner tb).pins = s.pins ∧ (s.setTuner tb).freeDraws = s.freeDraws ∧ (s.setTuner tb).pending = s.pending :=
  ⟨rfl, rfl, rfl, rfl, rfl, rfl, rfl, rfl, rfl, rfl, rfl, rfl, rfl, rfl, rfl, rfl, rfl, rfl, rfl⟩

@[simp] theorem State.takePhase_frame (s : State) (b : Bool) :
    (s.takePhase b).rt = s.rt ∧ (s.takePhase b).lc = s.lc ∧ (s.takePhase b).pt = s.pt ∧ (s.takePhase b).st = s.st ∧
      (s.takePhase b).sp = s.sp ∧ (s.takePhase b).sr = s.sr ∧ (s.takePhase b).zt = s.zt ∧ (s.takePhase b).ir = s.ir ∧
      (s.takePhase b).pd = s.pd ∧ (s.takePhase b).mm = s.mm ∧ (s.takePhase b).om = s.om ∧ (s.takePhase b).sm = s.sm ∧
      (s.takePhase b).ps = s.ps ∧ (s.takePhase b).cl = s.cl ∧ (s.takePhase b).cr = s.cr ∧ (s.takePhase b).rc = s.rc ∧
      (s.takePhase b).pins = s.pins ∧ (s.takePhase b).freeDraws = s.freeDraws ∧ (s.takePhase b).pending = s.pending :=
  ⟨rfl, rfl, rfl, rfl, rfl, rfl, rfl, rfl, rfl, rfl, rfl, rfl, rfl, rfl, rfl, rfl, rfl, rfl, rfl⟩

@[simp] theorem State.silentFrame_frame (s : State) :
    (s.silentFrame).rt = s.rt ∧ (s.silentFrame).lc = s.lc ∧ (s.silentFrame).pt = s.pt ∧ (s.silentFrame).st = s.st ∧
      (s.silentFrame).sp = s.sp ∧ (s.silentFrame).sr = s.sr ∧ (s.silentFrame).zt = s.zt ∧ (s.silentFrame).ir = s.ir ∧
      (s.silentFrame).pd = s.pd ∧ (s.silentFrame).om = s.om ∧ (s.silentFrame).sm = s.sm ∧ (s.silentFrame).tb = s.tb ∧
      (s.silentFrame).ps = s.ps ∧ (s.silentFrame).cl = s.cl ∧ (s.silentFrame).cr = s.cr ∧ (s.silentFrame).rc = s.rc ∧
      (s.silentFrame).pins = s.pins ∧ (s.silentFrame).freeDraws = s.freeDraws ∧ (s.silentFrame).pending = s.pending :=
  ⟨rfl, rfl, rfl, rfl, rfl, rfl, rfl, rfl, rfl, rfl, rfl, rfl, rfl, rfl, rfl, rfl, rfl, rfl, rfl⟩

@[simp] theorem State.playPairs_frame (s : State) (pairs : List (Sample × Sample)) :
    (s.playPairs pairs).rt = s.rt ∧ (s.playPairs pairs).lc = s.lc ∧ (s.playPairs pairs).pt = s.pt ∧ (s.playPairs pairs).st = s.st ∧
      (s.playPairs pairs).sp = s.sp ∧ (s.playPairs pairs).zt = s.zt ∧ (s.playPairs pairs).ir = s.ir ∧ (s.playPairs pairs).pd = s.pd ∧
      (s.playPairs pairs).om = s.om ∧ (s.playPairs pairs).sm = s.sm ∧ (s.playPairs pairs).tb = s.tb ∧ (s.playPairs pairs).ps = s.ps ∧
      (s.playPairs pairs).cl = s.cl ∧ (s.playPairs pairs).cr = s.cr ∧ (s.playPairs pairs).rc = s.rc ∧ (s.playPairs pairs).pins = s.pins ∧
      (s.playPairs pairs).freeDraws = s.freeDraws ∧ (s.playPairs pairs).pending = s.pending :=
  ⟨rfl, rfl, rfl, rfl, rfl, rfl, rfl, rfl, rfl, rfl, rfl, rfl, rfl, rfl, rfl, rfl, rfl, rfl⟩

@[simp] theorem State.evalGo_frame (s : State) :
    (s.evalGo).rt = s.rt ∧ (s.evalGo).lc = s.lc ∧ (s.evalGo).pt = s.pt ∧ (s.evalGo).st = s.st ∧ (s.evalGo).sp = s.sp ∧
      (s.evalGo).sr = s.sr ∧ (s.evalGo).zt = s.zt ∧ (s.evalGo).ir = s.ir ∧ (s.evalGo).pd = s.pd ∧ (s.evalGo).mm = s.mm ∧
      (s.evalGo).sm = s.sm ∧ (s.evalGo).tb = s.tb ∧ (s.evalGo).ps = s.ps ∧ (s.evalGo).cl = s.cl ∧ (s.evalGo).cr = s.cr ∧
      (s.evalGo).rc = s.rc ∧ (s.evalGo).pins = s.pins ∧ (s.evalGo).freeDraws = s.freeDraws ∧ (s.evalGo).pending = s.pending :=
  ⟨rfl, rfl, rfl, rfl, rfl, rfl, rfl, rfl, rfl, rfl, rfl, rfl, rfl, rfl, rfl, rfl, rfl, rfl, rfl⟩

@[simp] theorem State.rampStep_frame (s : State) :
    (s.rampStep).rt = s.rt ∧ (s.rampStep).lc = s.lc ∧ (s.rampStep).pt = s.pt ∧ (s.rampStep).st = s.st ∧ (s.rampStep).sp = s.sp ∧
      (s.rampStep).sr = s.sr ∧ (s.rampStep).zt = s.zt ∧ (s.rampStep).ir = s.ir ∧ (s.rampStep).pd = s.pd ∧ (s.rampStep).mm = s.mm ∧
      (s.rampStep).sm = s.sm ∧ (s.rampStep).tb = s.tb ∧ (s.rampStep).ps = s.ps ∧ (s.rampStep).cl = s.cl ∧ (s.rampStep).cr = s.cr ∧
      (s.rampStep).rc = s.rc ∧ (s.rampStep).pins = s.pins ∧ (s.rampStep).freeDraws = s.freeDraws ∧ (s.rampStep).pending = s.pending :=
  ⟨rfl, rfl, rfl, rfl, rfl, rfl, rfl, rfl, rfl, rfl, rfl, rfl, rfl, rfl, rfl, rfl, rfl, rfl, rfl⟩

@[simp] theorem State.cut_frame (s : State) :
    (s.cut).rt = s.rt ∧ (s.cut).lc = s.lc ∧ (s.cut).pt = s.pt ∧ (s.cut).st = s.st ∧ (s.cut).sp = s.sp ∧ (s.cut).sr = s.sr ∧
      (s.cut).zt = s.zt ∧ (s.cut).ir = s.ir ∧ (s.cut).pd = s.pd ∧ (s.cut).mm = s.mm ∧ (s.cut).sm = s.sm ∧ (s.cut).tb = s.tb ∧
      (s.cut).ps = s.ps ∧ (s.cut).cl = s.cl ∧ (s.cut).cr = s.cr ∧ (s.cut).rc = s.rc ∧ (s.cut).pins = s.pins ∧
      (s.cut).freeDraws = s.freeDraws ∧ (s.cut).pending = s.pending :=
  ⟨rfl, rfl, rfl, rfl, rfl, rfl, rfl, rfl, rfl, rfl, rfl, rfl, rfl, rfl, rfl, rfl, rfl, rfl, rfl⟩

@[simp] theorem State.swapRound_frame (s : State) :
    (s.swapRound).rt = s.rt ∧ (s.swapRound).lc = s.lc ∧ (s.swapRound).pt = s.pt ∧ (s.swapRound).st = s.st ∧ (s.swapRound).sp = s.sp ∧
      (s.swapRound).sr = s.sr ∧ (s.swapRound).zt = s.zt ∧ (s.swapRound).ir = s.ir ∧ (s.swapRound).pd = s.pd ∧ (s.swapRound).om = s.om ∧
      (s.swapRound).sm = s.sm ∧ (s.swapRound).tb = s.tb ∧ (s.swapRound).ps = s.ps ∧ (s.swapRound).cl = s.cl ∧ (s.swapRound).cr = s.cr ∧
      (s.swapRound).rc = s.rc ∧ (s.swapRound).pins = s.pins ∧ (s.swapRound).freeDraws = s.freeDraws ∧ (s.swapRound).pending = s.pending :=
  ⟨rfl, rfl, rfl, rfl, rfl, rfl, rfl, rfl, rfl, rfl, rfl, rfl, rfl, rfl, rfl, rfl, rfl, rfl, rfl⟩

@[simp] theorem State.closeWindow_frame (s : State) :
    (s.closeWindow).rt = s.rt ∧ (s.closeWindow).lc = s.lc ∧ (s.closeWindow).st = s.st ∧ (s.closeWindow).sp = s.sp ∧
      (s.closeWindow).sr = s.sr ∧ (s.closeWindow).ir = s.ir ∧ (s.closeWindow).pd = s.pd ∧ (s.closeWindow).mm = s.mm ∧
      (s.closeWindow).om = s.om ∧ (s.closeWindow).sm = s.sm ∧ (s.closeWindow).tb = s.tb ∧ (s.closeWindow).ps = s.ps ∧
      (s.closeWindow).cl = s.cl ∧ (s.closeWindow).cr = s.cr ∧ (s.closeWindow).rc = s.rc ∧ (s.closeWindow).pins = s.pins ∧
      (s.closeWindow).freeDraws = s.freeDraws ∧ (s.closeWindow).pending = s.pending :=
  ⟨rfl, rfl, rfl, rfl, rfl, rfl, rfl, rfl, rfl, rfl, rfl, rfl, rfl, rfl, rfl, rfl, rfl, rfl⟩

@[simp] theorem State.takeMessage_frame (s : State) (field : ArbField) :
    (s.takeMessage field).rt = s.rt ∧ (s.takeMessage field).st = s.st ∧ (s.takeMessage field).sp = s.sp ∧
      (s.takeMessage field).sr = s.sr ∧ (s.takeMessage field).zt = s.zt ∧ (s.takeMessage field).ir = s.ir ∧
      (s.takeMessage field).pd = s.pd ∧ (s.takeMessage field).mm = s.mm ∧ (s.takeMessage field).om = s.om ∧
      (s.takeMessage field).sm = s.sm ∧ (s.takeMessage field).tb = s.tb ∧ (s.takeMessage field).ps = s.ps ∧
      (s.takeMessage field).cl = s.cl ∧ (s.takeMessage field).cr = s.cr ∧ (s.takeMessage field).rc = s.rc ∧
      (s.takeMessage field).pins = s.pins ∧ (s.takeMessage field).freeDraws = s.freeDraws ∧ (s.takeMessage field).pending = s.pending :=
  ⟨rfl, rfl, rfl, rfl, rfl, rfl, rfl, rfl, rfl, rfl, rfl, rfl, rfl, rfl, rfl, rfl, rfl, rfl⟩

@[simp] theorem State.clearJoinFlag_frame (s : State) (b : Bool) :
    (s.clearJoinFlag b).rt = s.rt ∧ (s.clearJoinFlag b).lc = s.lc ∧ (s.clearJoinFlag b).st = s.st ∧ (s.clearJoinFlag b).sp = s.sp ∧
      (s.clearJoinFlag b).sr = s.sr ∧ (s.clearJoinFlag b).zt = s.zt ∧ (s.clearJoinFlag b).ir = s.ir ∧ (s.clearJoinFlag b).pd = s.pd ∧
      (s.clearJoinFlag b).mm = s.mm ∧ (s.clearJoinFlag b).om = s.om ∧ (s.clearJoinFlag b).sm = s.sm ∧ (s.clearJoinFlag b).tb = s.tb ∧
      (s.clearJoinFlag b).ps = s.ps ∧ (s.clearJoinFlag b).cl = s.cl ∧ (s.clearJoinFlag b).cr = s.cr ∧ (s.clearJoinFlag b).rc = s.rc ∧
      (s.clearJoinFlag b).pins = s.pins ∧ (s.clearJoinFlag b).freeDraws = s.freeDraws ∧ (s.clearJoinFlag b).pending = s.pending :=
  ⟨rfl, rfl, rfl, rfl, rfl, rfl, rfl, rfl, rfl, rfl, rfl, rfl, rfl, rfl, rfl, rfl, rfl, rfl, rfl⟩

@[simp] theorem State.answerJoin_frame (s : State) (sender : Station) (b : Bool) :
    (s.answerJoin sender b).rt = s.rt ∧ (s.answerJoin sender b).pt = s.pt ∧ (s.answerJoin sender b).st = s.st ∧
      (s.answerJoin sender b).sp = s.sp ∧ (s.answerJoin sender b).sr = s.sr ∧ (s.answerJoin sender b).zt = s.zt ∧
      (s.answerJoin sender b).ir = s.ir ∧ (s.answerJoin sender b).pd = s.pd ∧ (s.answerJoin sender b).mm = s.mm ∧
      (s.answerJoin sender b).om = s.om ∧ (s.answerJoin sender b).sm = s.sm ∧ (s.answerJoin sender b).tb = s.tb ∧
      (s.answerJoin sender b).ps = s.ps ∧ (s.answerJoin sender b).cl = s.cl ∧ (s.answerJoin sender b).cr = s.cr ∧
      (s.answerJoin sender b).rc = s.rc ∧ (s.answerJoin sender b).pins = s.pins ∧ (s.answerJoin sender b).freeDraws = s.freeDraws ∧
      (s.answerJoin sender b).pending = s.pending :=
  ⟨rfl, rfl, rfl, rfl, rfl, rfl, rfl, rfl, rfl, rfl, rfl, rfl, rfl, rfl, rfl, rfl, rfl, rfl, rfl⟩

@[simp] theorem State.driveFaultLine_frame (s : State) (n : OutputNo) (on : Bool) :
    (s.driveFaultLine n on).rt = s.rt ∧ (s.driveFaultLine n on).lc = s.lc ∧ (s.driveFaultLine n on).pt = s.pt ∧
      (s.driveFaultLine n on).st = s.st ∧ (s.driveFaultLine n on).sp = s.sp ∧ (s.driveFaultLine n on).sr = s.sr ∧
      (s.driveFaultLine n on).zt = s.zt ∧ (s.driveFaultLine n on).ir = s.ir ∧ (s.driveFaultLine n on).pd = s.pd ∧
      (s.driveFaultLine n on).mm = s.mm ∧ (s.driveFaultLine n on).om = s.om ∧ (s.driveFaultLine n on).sm = s.sm ∧
      (s.driveFaultLine n on).tb = s.tb ∧ (s.driveFaultLine n on).ps = s.ps ∧ (s.driveFaultLine n on).cl = s.cl ∧
      (s.driveFaultLine n on).cr = s.cr ∧ (s.driveFaultLine n on).rc = s.rc ∧ (s.driveFaultLine n on).freeDraws = s.freeDraws ∧
      (s.driveFaultLine n on).pending = s.pending :=
  ⟨rfl, rfl, rfl, rfl, rfl, rfl, rfl, rfl, rfl, rfl, rfl, rfl, rfl, rfl, rfl, rfl, rfl, rfl, rfl⟩

@[simp] theorem State.driveClock_frame (s : State) (id : InputId) (on : Bool) :
    (s.driveClock id on).rt = s.rt ∧ (s.driveClock id on).lc = s.lc ∧ (s.driveClock id on).pt = s.pt ∧ (s.driveClock id on).st = s.st ∧
      (s.driveClock id on).sp = s.sp ∧ (s.driveClock id on).sr = s.sr ∧ (s.driveClock id on).zt = s.zt ∧ (s.driveClock id on).ir = s.ir ∧
      (s.driveClock id on).pd = s.pd ∧ (s.driveClock id on).mm = s.mm ∧ (s.driveClock id on).om = s.om ∧ (s.driveClock id on).sm = s.sm ∧
      (s.driveClock id on).tb = s.tb ∧ (s.driveClock id on).ps = s.ps ∧ (s.driveClock id on).cl = s.cl ∧ (s.driveClock id on).cr = s.cr ∧
      (s.driveClock id on).rc = s.rc ∧ (s.driveClock id on).freeDraws = s.freeDraws ∧ (s.driveClock id on).pending = s.pending :=
  ⟨rfl, rfl, rfl, rfl, rfl, rfl, rfl, rfl, rfl, rfl, rfl, rfl, rfl, rfl, rfl, rfl, rfl, rfl, rfl⟩

@[simp] theorem State.hearSlot_frame (s : State) (slot : SlotNo) (h : Option (SlotHeader × List Byte)) :
    (s.hearSlot slot h).rt = s.rt ∧ (s.hearSlot slot h).pt = s.pt ∧ (s.hearSlot slot h).st = s.st ∧ (s.hearSlot slot h).zt = s.zt ∧
      (s.hearSlot slot h).ir = s.ir ∧ (s.hearSlot slot h).pd = s.pd ∧ (s.hearSlot slot h).mm = s.mm ∧ (s.hearSlot slot h).om = s.om ∧
      (s.hearSlot slot h).sm = s.sm ∧ (s.hearSlot slot h).tb = s.tb ∧ (s.hearSlot slot h).ps = s.ps ∧ (s.hearSlot slot h).cl = s.cl ∧
      (s.hearSlot slot h).cr = s.cr ∧ (s.hearSlot slot h).rc = s.rc ∧ (s.hearSlot slot h).pins = s.pins ∧
      (s.hearSlot slot h).pending = s.pending :=
  ⟨rfl, rfl, rfl, rfl, rfl, rfl, rfl, rfl, rfl, rfl, rfl, rfl, rfl, rfl, rfl, rfl⟩

/-! ## The steps of the coming round begin that a command has made (R129, R134, R136, R147) -/

/-- A ramp step that no command has made. -/
@[simp] theorem OutputRecord.rampStep_fresh {o : OutputRecord} (h : o.taken.ramp = false) (a : Bool) : o.rampStep a = o.rampMove a := by
  simp [OutputRecord.rampStep, h]

/-- A ramp step that a command has made is not made again. -/
@[simp] theorem OutputRecord.rampStep_taken {o : OutputRecord} (h : o.taken.ramp = true) (a : Bool) :
    o.rampStep a = { o with taken := { o.taken with ramp := false } } := by simp [OutputRecord.rampStep, h]

@[simp] theorem OutputRecord.decayStep_fresh {o : OutputRecord} (h : o.taken.decay = false) : o.decayStep = o.decayMove := by
  simp [OutputRecord.decayStep, h]

@[simp] theorem OutputRecord.decayStep_taken {o : OutputRecord} (h : o.taken.decay = true) :
    o.decayStep = { o with taken := { o.taken with decay := false } } := by simp [OutputRecord.decayStep, h]

/-- A phase step that a command has made counts nothing, and an open gate starts at the capture. -/
@[simp] theorem State.phaseStep_taken {s : State} (h : s.tb.taken.phase = true) : s.phaseStep = s.setTuner (s.tb.afterAhead s.rt.counter) := by
  simp [State.phaseStep, h]

@[simp] theorem Tuner.afterAhead_rest (tb : Tuner) (c : Counter) : (tb.afterAhead c).state = tb.state ∧ (tb.afterAhead c).band = tb.band ∧
    (tb.afterAhead c).freq = tb.freq ∧ (tb.afterAhead c).phase = tb.phase ∧ (tb.afterAhead c).op = tb.op ∧
    (tb.afterAhead c).holders = tb.holders ∧ (tb.afterAhead c).unheld = tb.unheld := by
  simp only [Tuner.afterAhead]
  split <;> exact ⟨rfl, rfl, rfl, rfl, rfl, rfl, rfl⟩

end Sys2Proof.Machine
end

