-- ==== Sys2Proof/Laws/FramesOutputs.lean ====
section
/-! SUPPORT. Laws of the state: what the operations of the decoder and of the outputs leave unchanged. -/

namespace Sys2Proof.Machine

@[simp] theorem State.checkDecoder_frame (s : State) :
    (s.checkDecoder).rt = s.rt ∧ (s.checkDecoder).lc = s.lc ∧ (s.checkDecoder).pt = s.pt ∧ (s.checkDecoder).st = s.st ∧
      (s.checkDecoder).sp = s.sp ∧ (s.checkDecoder).sr = s.sr ∧ (s.checkDecoder).zt = s.zt ∧ (s.checkDecoder).ir = s.ir ∧
      (s.checkDecoder).om = s.om ∧ (s.checkDecoder).sm = s.sm ∧ (s.checkDecoder).tb = s.tb ∧ (s.checkDecoder).ps = s.ps ∧
      (s.checkDecoder).cl = s.cl ∧ (s.checkDecoder).rc = s.rc ∧ (s.checkDecoder).pins = s.pins ∧
      (s.checkDecoder).freeDraws = s.freeDraws ∧ (s.checkDecoder).pending = s.pending := by
  simp [State.checkDecoder]

@[simp] theorem State.decode_frame (s : State) (h : Handed) :
    (s.decode h).rt = s.rt ∧ (s.decode h).lc = s.lc ∧ (s.decode h).pt = s.pt ∧ (s.decode h).st = s.st ∧ (s.decode h).sp = s.sp ∧
      (s.decode h).sr = s.sr ∧ (s.decode h).zt = s.zt ∧ (s.decode h).ir = s.ir ∧ (s.decode h).om = s.om ∧ (s.decode h).sm = s.sm ∧
      (s.decode h).tb = s.tb ∧ (s.decode h).ps = s.ps ∧ (s.decode h).cl = s.cl ∧ (s.decode h).rc = s.rc ∧ (s.decode h).pins = s.pins ∧
      (s.decode h).freeDraws = s.freeDraws ∧ (s.decode h).pending = s.pending := by
  simp [State.decode]

@[simp] theorem State.countFault_frame (s : State) (n : OutputNo) :
    (s.countFault n).rt = s.rt ∧ (s.countFault n).lc = s.lc ∧ (s.countFault n).st = s.st ∧ (s.countFault n).sp = s.sp ∧
      (s.countFault n).sr = s.sr ∧ (s.countFault n).zt = s.zt ∧ (s.countFault n).ir = s.ir ∧ (s.countFault n).pd = s.pd ∧
      (s.countFault n).mm = s.mm ∧ (s.countFault n).sm = s.sm ∧ (s.countFault n).tb = s.tb ∧ (s.countFault n).ps = s.ps ∧
      (s.countFault n).cl = s.cl ∧ (s.countFault n).rc = s.rc ∧ (s.countFault n).pins = s.pins ∧
      (s.countFault n).freeDraws = s.freeDraws ∧ (s.countFault n).pending = s.pending := by
  simp [State.countFault]

@[simp] theorem State.countFaultIf_frame (s : State) (n : OutputNo) (b : Bool) :
    (s.countFaultIf n b).rt = s.rt ∧ (s.countFaultIf n b).lc = s.lc ∧ (s.countFaultIf n b).st = s.st ∧ (s.countFaultIf n b).sp = s.sp ∧
      (s.countFaultIf n b).sr = s.sr ∧ (s.countFaultIf n b).zt = s.zt ∧ (s.countFaultIf n b).ir = s.ir ∧ (s.countFaultIf n b).pd = s.pd ∧
      (s.countFaultIf n b).mm = s.mm ∧ (s.countFaultIf n b).sm = s.sm ∧ (s.countFaultIf n b).tb = s.tb ∧ (s.countFaultIf n b).ps = s.ps ∧
      (s.countFaultIf n b).cl = s.cl ∧ (s.countFaultIf n b).rc = s.rc ∧ (s.countFaultIf n b).pins = s.pins ∧
      (s.countFaultIf n b).freeDraws = s.freeDraws ∧ (s.countFaultIf n b).pending = s.pending := by
  simp only [State.countFaultIf]
  (repeat' split) <;> simp

@[simp] theorem State.endRecovery_frame (s : State) (n : OutputNo) :
    (s.endRecovery n).rt = s.rt ∧ (s.endRecovery n).lc = s.lc ∧ (s.endRecovery n).st = s.st ∧ (s.endRecovery n).sp = s.sp ∧
      (s.endRecovery n).sr = s.sr ∧ (s.endRecovery n).zt = s.zt ∧ (s.endRecovery n).ir = s.ir ∧ (s.endRecovery n).pd = s.pd ∧
      (s.endRecovery n).mm = s.mm ∧ (s.endRecovery n).sm = s.sm ∧ (s.endRecovery n).tb = s.tb ∧ (s.endRecovery n).ps = s.ps ∧
      (s.endRecovery n).cl = s.cl ∧ (s.endRecovery n).rc = s.rc ∧ (s.endRecovery n).pins = s.pins ∧
      (s.endRecovery n).freeDraws = s.freeDraws ∧ (s.endRecovery n).pending = s.pending := by
  simp only [State.endRecovery]
  (repeat' split) <;> simp

@[simp] theorem State.recoverAt_frame (s : State) (n : OutputNo) (b : Nat) :
    (s.recoverAt n b).rt = s.rt ∧ (s.recoverAt n b).lc = s.lc ∧ (s.recoverAt n b).st = s.st ∧ (s.recoverAt n b).sp = s.sp ∧
      (s.recoverAt n b).sr = s.sr ∧ (s.recoverAt n b).zt = s.zt ∧ (s.recoverAt n b).ir = s.ir ∧ (s.recoverAt n b).pd = s.pd ∧
      (s.recoverAt n b).mm = s.mm ∧ (s.recoverAt n b).sm = s.sm ∧ (s.recoverAt n b).tb = s.tb ∧ (s.recoverAt n b).ps = s.ps ∧
      (s.recoverAt n b).cl = s.cl ∧ (s.recoverAt n b).rc = s.rc ∧ (s.recoverAt n b).pins = s.pins ∧
      (s.recoverAt n b).freeDraws = s.freeDraws ∧ (s.recoverAt n b).pending = s.pending := by
  simp [State.recoverAt]

@[simp] theorem State.recoveryStep_frame (s : State) (n : OutputNo) :
    (s.recoveryStep n).rt = s.rt ∧ (s.recoveryStep n).lc = s.lc ∧ (s.recoveryStep n).st = s.st ∧ (s.recoveryStep n).sp = s.sp ∧
      (s.recoveryStep n).sr = s.sr ∧ (s.recoveryStep n).zt = s.zt ∧ (s.recoveryStep n).ir = s.ir ∧ (s.recoveryStep n).pd = s.pd ∧
      (s.recoveryStep n).mm = s.mm ∧ (s.recoveryStep n).sm = s.sm ∧ (s.recoveryStep n).tb = s.tb ∧ (s.recoveryStep n).ps = s.ps ∧
      (s.recoveryStep n).cl = s.cl ∧ (s.recoveryStep n).rc = s.rc ∧ (s.recoveryStep n).pins = s.pins ∧
      (s.recoveryStep n).freeDraws = s.freeDraws ∧ (s.recoveryStep n).pending = s.pending := by
  simp only [State.recoveryStep]
  (repeat' split) <;> simp

@[simp] theorem State.activateOutput_frame (s : State) (n : OutputNo) :
    (s.activateOutput n).rt = s.rt ∧ (s.activateOutput n).lc = s.lc ∧ (s.activateOutput n).st = s.st ∧ (s.activateOutput n).sp = s.sp ∧
      (s.activateOutput n).sr = s.sr ∧ (s.activateOutput n).zt = s.zt ∧ (s.activateOutput n).ir = s.ir ∧ (s.activateOutput n).pd = s.pd ∧
      (s.activateOutput n).mm = s.mm ∧ (s.activateOutput n).sm = s.sm ∧ (s.activateOutput n).tb = s.tb ∧ (s.activateOutput n).ps = s.ps ∧
      (s.activateOutput n).cl = s.cl ∧ (s.activateOutput n).rc = s.rc ∧ (s.activateOutput n).pins = s.pins ∧
      (s.activateOutput n).freeDraws = s.freeDraws ∧ (s.activateOutput n).pending = s.pending := by
  simp only [State.activateOutput]
  (repeat' split) <;> simp

@[simp] theorem State.quietOutput_frame (s : State) (n : OutputNo) :
    (s.quietOutput n).rt = s.rt ∧ (s.quietOutput n).lc = s.lc ∧ (s.quietOutput n).pt = s.pt ∧ (s.quietOutput n).st = s.st ∧
      (s.quietOutput n).sp = s.sp ∧ (s.quietOutput n).sr = s.sr ∧ (s.quietOutput n).zt = s.zt ∧ (s.quietOutput n).ir = s.ir ∧
      (s.quietOutput n).pd = s.pd ∧ (s.quietOutput n).mm = s.mm ∧ (s.quietOutput n).sm = s.sm ∧ (s.quietOutput n).tb = s.tb ∧
      (s.quietOutput n).ps = s.ps ∧ (s.quietOutput n).cl = s.cl ∧ (s.quietOutput n).cr = s.cr ∧ (s.quietOutput n).rc = s.rc ∧
      (s.quietOutput n).pins = s.pins ∧ (s.quietOutput n).freeDraws = s.freeDraws ∧ (s.quietOutput n).pending = s.pending := by
  simp only [State.quietOutput]
  (repeat' split) <;> simp

@[simp] theorem State.standbyOutput_frame (s : State) (n : OutputNo) :
    (s.standbyOutput n).rt = s.rt ∧ (s.standbyOutput n).lc = s.lc ∧ (s.standbyOutput n).st = s.st ∧ (s.standbyOutput n).sp = s.sp ∧
      (s.standbyOutput n).sr = s.sr ∧ (s.standbyOutput n).zt = s.zt ∧ (s.standbyOutput n).ir = s.ir ∧ (s.standbyOutput n).pd = s.pd ∧
      (s.standbyOutput n).mm = s.mm ∧ (s.standbyOutput n).sm = s.sm ∧ (s.standbyOutput n).tb = s.tb ∧ (s.standbyOutput n).ps = s.ps ∧
      (s.standbyOutput n).cl = s.cl ∧ (s.standbyOutput n).rc = s.rc ∧ (s.standbyOutput n).pins = s.pins ∧
      (s.standbyOutput n).freeDraws = s.freeDraws ∧ (s.standbyOutput n).pending = s.pending := by
  simp [State.standbyOutput]

@[simp] theorem State.restoreOutput_frame (s : State) (n : OutputNo) :
    (s.restoreOutput n).rt = s.rt ∧ (s.restoreOutput n).lc = s.lc ∧ (s.restoreOutput n).st = s.st ∧ (s.restoreOutput n).sp = s.sp ∧
      (s.restoreOutput n).sr = s.sr ∧ (s.restoreOutput n).zt = s.zt ∧ (s.restoreOutput n).ir = s.ir ∧ (s.restoreOutput n).pd = s.pd ∧
      (s.restoreOutput n).mm = s.mm ∧ (s.restoreOutput n).sm = s.sm ∧ (s.restoreOutput n).tb = s.tb ∧ (s.restoreOutput n).ps = s.ps ∧
      (s.restoreOutput n).cl = s.cl ∧ (s.restoreOutput n).rc = s.rc ∧ (s.restoreOutput n).pins = s.pins ∧
      (s.restoreOutput n).freeDraws = s.freeDraws ∧ (s.restoreOutput n).pending = s.pending := by
  simp only [State.restoreOutput]
  (repeat' split) <;> simp

end Sys2Proof.Machine
end

