-- ==== Sys2Proof/Laws/FramesStreams.lean ====
section
/-! SUPPORT. Laws of the state: what the operations of the publisher, the receiver and the inputs leave unchanged. -/

namespace Sys2Proof.Machine

@[simp] theorem State.settle_frame (s : State) (src : Source) (b : Bool) :
    (s.settle src b).rt = s.rt ∧ (s.settle src b).pt = s.pt ∧ (s.settle src b).st = s.st ∧ (s.settle src b).sr = s.sr ∧
      (s.settle src b).zt = s.zt ∧ (s.settle src b).ir = s.ir ∧ (s.settle src b).pd = s.pd ∧ (s.settle src b).mm = s.mm ∧
      (s.settle src b).om = s.om ∧ (s.settle src b).sm = s.sm ∧ (s.settle src b).tb = s.tb ∧ (s.settle src b).ps = s.ps ∧
      (s.settle src b).cl = s.cl ∧ (s.settle src b).rc = s.rc ∧ (s.settle src b).pins = s.pins ∧
      (s.settle src b).freeDraws = s.freeDraws ∧ (s.settle src b).pending = s.pending := by
  simp only [State.settle]
  (repeat' split) <;> simp

@[simp] theorem State.followDemand_frame (s : State) (src : Source) :
    (s.followDemand src).rt = s.rt ∧ (s.followDemand src).pt = s.pt ∧ (s.followDemand src).st = s.st ∧ (s.followDemand src).sr = s.sr ∧
      (s.followDemand src).zt = s.zt ∧ (s.followDemand src).ir = s.ir ∧ (s.followDemand src).pd = s.pd ∧ (s.followDemand src).mm = s.mm ∧
      (s.followDemand src).om = s.om ∧ (s.followDemand src).sm = s.sm ∧ (s.followDemand src).tb = s.tb ∧ (s.followDemand src).ps = s.ps ∧
      (s.followDemand src).cl = s.cl ∧ (s.followDemand src).rc = s.rc ∧ (s.followDemand src).pins = s.pins ∧
      (s.followDemand src).freeDraws = s.freeDraws ∧ (s.followDemand src).pending = s.pending := by
  simp only [State.followDemand]
  (repeat' split) <;> simp

@[simp] theorem State.followKind_frame (s : State) (src : Source) (k : Kind) :
    (s.followKind src k).rt = s.rt ∧ (s.followKind src k).pt = s.pt ∧ (s.followKind src k).st = s.st ∧ (s.followKind src k).sr = s.sr ∧
      (s.followKind src k).zt = s.zt ∧ (s.followKind src k).ir = s.ir ∧ (s.followKind src k).pd = s.pd ∧ (s.followKind src k).mm = s.mm ∧
      (s.followKind src k).om = s.om ∧ (s.followKind src k).sm = s.sm ∧ (s.followKind src k).tb = s.tb ∧ (s.followKind src k).ps = s.ps ∧
      (s.followKind src k).cl = s.cl ∧ (s.followKind src k).rc = s.rc ∧ (s.followKind src k).pins = s.pins ∧
      (s.followKind src k).freeDraws = s.freeDraws ∧ (s.followKind src k).pending = s.pending := by
  simp only [State.followKind]
  (repeat' split) <;> simp

@[simp] theorem State.followDemands_frame (s : State) :
    (s.followDemands).rt = s.rt ∧ (s.followDemands).pt = s.pt ∧ (s.followDemands).st = s.st ∧ (s.followDemands).sr = s.sr ∧
      (s.followDemands).zt = s.zt ∧ (s.followDemands).ir = s.ir ∧ (s.followDemands).pd = s.pd ∧ (s.followDemands).mm = s.mm ∧
      (s.followDemands).om = s.om ∧ (s.followDemands).sm = s.sm ∧ (s.followDemands).tb = s.tb ∧ (s.followDemands).ps = s.ps ∧
      (s.followDemands).cl = s.cl ∧ (s.followDemands).rc = s.rc ∧ (s.followDemands).pins = s.pins ∧
      (s.followDemands).freeDraws = s.freeDraws ∧ (s.followDemands).pending = s.pending := by
  simp [State.followDemands, State.eachSource]

@[simp] theorem State.afterFreeing_frame (s : State) (freed : List Stream) (src : Source) :
    (s.afterFreeing freed src).rt = s.rt ∧ (s.afterFreeing freed src).pt = s.pt ∧ (s.afterFreeing freed src).st = s.st ∧
      (s.afterFreeing freed src).sr = s.sr ∧ (s.afterFreeing freed src).zt = s.zt ∧ (s.afterFreeing freed src).ir = s.ir ∧
      (s.afterFreeing freed src).pd = s.pd ∧ (s.afterFreeing freed src).mm = s.mm ∧ (s.afterFreeing freed src).om = s.om ∧
      (s.afterFreeing freed src).sm = s.sm ∧ (s.afterFreeing freed src).tb = s.tb ∧ (s.afterFreeing freed src).ps = s.ps ∧
      (s.afterFreeing freed src).cl = s.cl ∧ (s.afterFreeing freed src).rc = s.rc ∧ (s.afterFreeing freed src).pins = s.pins ∧
      (s.afterFreeing freed src).freeDraws = s.freeDraws ∧ (s.afterFreeing freed src).pending = s.pending := by
  simp only [State.afterFreeing]
  (repeat' split) <;> simp

@[simp] theorem State.handFreed_frame (s : State) (freed : List Stream) :
    (s.handFreed freed).rt = s.rt ∧ (s.handFreed freed).pt = s.pt ∧ (s.handFreed freed).st = s.st ∧ (s.handFreed freed).sr = s.sr ∧
      (s.handFreed freed).zt = s.zt ∧ (s.handFreed freed).ir = s.ir ∧ (s.handFreed freed).pd = s.pd ∧ (s.handFreed freed).mm = s.mm ∧
      (s.handFreed freed).om = s.om ∧ (s.handFreed freed).sm = s.sm ∧ (s.handFreed freed).tb = s.tb ∧ (s.handFreed freed).ps = s.ps ∧
      (s.handFreed freed).cl = s.cl ∧ (s.handFreed freed).rc = s.rc ∧ (s.handFreed freed).pins = s.pins ∧
      (s.handFreed freed).freeDraws = s.freeDraws ∧ (s.handFreed freed).pending = s.pending := by
  simp [State.handFreed, State.eachSource]

@[simp] theorem State.ownTaken_frame (s : State) (src : Source) :
    (s.ownTaken src).rt = s.rt ∧ (s.ownTaken src).pt = s.pt ∧ (s.ownTaken src).st = s.st ∧ (s.ownTaken src).sr = s.sr ∧
      (s.ownTaken src).zt = s.zt ∧ (s.ownTaken src).ir = s.ir ∧ (s.ownTaken src).pd = s.pd ∧ (s.ownTaken src).mm = s.mm ∧
      (s.ownTaken src).om = s.om ∧ (s.ownTaken src).sm = s.sm ∧ (s.ownTaken src).tb = s.tb ∧ (s.ownTaken src).ps = s.ps ∧
      (s.ownTaken src).cl = s.cl ∧ (s.ownTaken src).rc = s.rc ∧ (s.ownTaken src).pins = s.pins ∧
      (s.ownTaken src).freeDraws = s.freeDraws ∧ (s.ownTaken src).pending = s.pending := by
  simp [State.ownTaken]

@[simp] theorem State.ownTakenAt_frame (s : State) (src : Option Source) :
    (s.ownTakenAt src).rt = s.rt ∧ (s.ownTakenAt src).pt = s.pt ∧ (s.ownTakenAt src).st = s.st ∧ (s.ownTakenAt src).sr = s.sr ∧
      (s.ownTakenAt src).zt = s.zt ∧ (s.ownTakenAt src).ir = s.ir ∧ (s.ownTakenAt src).pd = s.pd ∧ (s.ownTakenAt src).mm = s.mm ∧
      (s.ownTakenAt src).om = s.om ∧ (s.ownTakenAt src).sm = s.sm ∧ (s.ownTakenAt src).tb = s.tb ∧ (s.ownTakenAt src).ps = s.ps ∧
      (s.ownTakenAt src).cl = s.cl ∧ (s.ownTakenAt src).rc = s.rc ∧ (s.ownTakenAt src).pins = s.pins ∧
      (s.ownTakenAt src).freeDraws = s.freeDraws ∧ (s.ownTakenAt src).pending = s.pending := by
  simp only [State.ownTakenAt]
  (repeat' split) <;> simp

@[simp] theorem State.offerAgain_frame (s : State) (src : Source) :
    (s.offerAgain src).rt = s.rt ∧ (s.offerAgain src).pt = s.pt ∧ (s.offerAgain src).st = s.st ∧ (s.offerAgain src).sr = s.sr ∧
      (s.offerAgain src).zt = s.zt ∧ (s.offerAgain src).ir = s.ir ∧ (s.offerAgain src).pd = s.pd ∧ (s.offerAgain src).mm = s.mm ∧
      (s.offerAgain src).om = s.om ∧ (s.offerAgain src).sm = s.sm ∧ (s.offerAgain src).tb = s.tb ∧ (s.offerAgain src).ps = s.ps ∧
      (s.offerAgain src).cl = s.cl ∧ (s.offerAgain src).cr = s.cr ∧ (s.offerAgain src).rc = s.rc ∧ (s.offerAgain src).pins = s.pins ∧
      (s.offerAgain src).freeDraws = s.freeDraws ∧ (s.offerAgain src).pending = s.pending := by
  simp only [State.offerAgain]
  (repeat' split) <;> simp

@[simp] theorem State.switchTo_frame (s : State) (p : Option Stream) :
    (s.switchTo p).rt = s.rt ∧ (s.switchTo p).lc = s.lc ∧ (s.switchTo p).pt = s.pt ∧ (s.switchTo p).st = s.st ∧
      (s.switchTo p).sp = s.sp ∧ (s.switchTo p).zt = s.zt ∧ (s.switchTo p).ir = s.ir ∧ (s.switchTo p).om = s.om ∧
      (s.switchTo p).sm = s.sm ∧ (s.switchTo p).tb = s.tb ∧ (s.switchTo p).ps = s.ps ∧ (s.switchTo p).cl = s.cl ∧
      (s.switchTo p).rc = s.rc ∧ (s.switchTo p).pins = s.pins ∧ (s.switchTo p).freeDraws = s.freeDraws ∧
      (s.switchTo p).pending = s.pending := by
  simp [State.switchTo]

@[simp] theorem State.switchIfDown_frame (s : State) :
    (s.switchIfDown).rt = s.rt ∧ (s.switchIfDown).lc = s.lc ∧ (s.switchIfDown).pt = s.pt ∧ (s.switchIfDown).st = s.st ∧
      (s.switchIfDown).sp = s.sp ∧ (s.switchIfDown).zt = s.zt ∧ (s.switchIfDown).ir = s.ir ∧ (s.switchIfDown).om = s.om ∧
      (s.switchIfDown).sm = s.sm ∧ (s.switchIfDown).tb = s.tb ∧ (s.switchIfDown).ps = s.ps ∧ (s.switchIfDown).cl = s.cl ∧
      (s.switchIfDown).rc = s.rc ∧ (s.switchIfDown).pins = s.pins ∧ (s.switchIfDown).freeDraws = s.freeDraws ∧
      (s.switchIfDown).pending = s.pending := by
  simp only [State.switchIfDown]
  (repeat' split) <;> simp

@[simp] theorem State.followProgram_frame (s : State) :
    (s.followProgram).rt = s.rt ∧ (s.followProgram).lc = s.lc ∧ (s.followProgram).pt = s.pt ∧ (s.followProgram).st = s.st ∧
      (s.followProgram).sp = s.sp ∧ (s.followProgram).zt = s.zt ∧ (s.followProgram).ir = s.ir ∧ (s.followProgram).om = s.om ∧
      (s.followProgram).sm = s.sm ∧ (s.followProgram).tb = s.tb ∧ (s.followProgram).ps = s.ps ∧ (s.followProgram).cl = s.cl ∧
      (s.followProgram).rc = s.rc ∧ (s.followProgram).pins = s.pins ∧ (s.followProgram).freeDraws = s.freeDraws ∧
      (s.followProgram).pending = s.pending := by
  simp only [State.followProgram]
  (repeat' split) <;> simp

@[simp] theorem State.dropForD_frame (s : State) :
    (s.dropForD).rt = s.rt ∧ (s.dropForD).lc = s.lc ∧ (s.dropForD).pt = s.pt ∧ (s.dropForD).st = s.st ∧ (s.dropForD).sp = s.sp ∧
      (s.dropForD).zt = s.zt ∧ (s.dropForD).ir = s.ir ∧ (s.dropForD).pd = s.pd ∧ (s.dropForD).mm = s.mm ∧ (s.dropForD).om = s.om ∧
      (s.dropForD).sm = s.sm ∧ (s.dropForD).tb = s.tb ∧ (s.dropForD).ps = s.ps ∧ (s.dropForD).cl = s.cl ∧ (s.dropForD).rc = s.rc ∧
      (s.dropForD).pins = s.pins ∧ (s.dropForD).freeDraws = s.freeDraws ∧ (s.dropForD).pending = s.pending := by
  simp only [State.dropForD]
  (repeat' split) <;> simp

@[simp] theorem State.writeRing_frame (s : State) :
    (s.writeRing).rt = s.rt ∧ (s.writeRing).lc = s.lc ∧ (s.writeRing).pt = s.pt ∧ (s.writeRing).st = s.st ∧ (s.writeRing).sp = s.sp ∧
      (s.writeRing).zt = s.zt ∧ (s.writeRing).ir = s.ir ∧ (s.writeRing).pd = s.pd ∧ (s.writeRing).mm = s.mm ∧ (s.writeRing).om = s.om ∧
      (s.writeRing).sm = s.sm ∧ (s.writeRing).tb = s.tb ∧ (s.writeRing).ps = s.ps ∧ (s.writeRing).cl = s.cl ∧ (s.writeRing).rc = s.rc ∧
      (s.writeRing).pins = s.pins ∧ (s.writeRing).freeDraws = s.freeDraws ∧ (s.writeRing).pending = s.pending := by
  simp only [State.writeRing]
  (repeat' split) <;> simp

@[simp] theorem State.takeKind_frame (s : State) (k : Option Kind) :
    (s.takeKind k).rt = s.rt ∧ (s.takeKind k).lc = s.lc ∧ (s.takeKind k).pt = s.pt ∧ (s.takeKind k).st = s.st ∧
      (s.takeKind k).sp = s.sp ∧ (s.takeKind k).zt = s.zt ∧ (s.takeKind k).ir = s.ir ∧ (s.takeKind k).om = s.om ∧
      (s.takeKind k).sm = s.sm ∧ (s.takeKind k).tb = s.tb ∧ (s.takeKind k).ps = s.ps ∧ (s.takeKind k).cl = s.cl ∧
      (s.takeKind k).rc = s.rc ∧ (s.takeKind k).pins = s.pins ∧ (s.takeKind k).freeDraws = s.freeDraws ∧
      (s.takeKind k).pending = s.pending := by
  simp only [State.takeKind]
  (repeat' split) <;> simp

@[simp] theorem State.presentReceived_frame (s : State) (e : RingEntry) :
    (s.presentReceived e).rt = s.rt ∧ (s.presentReceived e).lc = s.lc ∧ (s.presentReceived e).pt = s.pt ∧
      (s.presentReceived e).st = s.st ∧ (s.presentReceived e).sp = s.sp ∧ (s.presentReceived e).zt = s.zt ∧
      (s.presentReceived e).ir = s.ir ∧ (s.presentReceived e).om = s.om ∧ (s.presentReceived e).sm = s.sm ∧
      (s.presentReceived e).tb = s.tb ∧ (s.presentReceived e).ps = s.ps ∧ (s.presentReceived e).cl = s.cl ∧
      (s.presentReceived e).rc = s.rc ∧ (s.presentReceived e).pins = s.pins ∧ (s.presentReceived e).freeDraws = s.freeDraws ∧
      (s.presentReceived e).pending = s.pending := by
  simp only [State.presentReceived]
  (repeat' split) <;> simp

@[simp] theorem State.fireWatchdog_frame (s : State) :
    (s.fireWatchdog).rt = s.rt ∧ (s.fireWatchdog).lc = s.lc ∧ (s.fireWatchdog).pt = s.pt ∧ (s.fireWatchdog).st = s.st ∧
      (s.fireWatchdog).sp = s.sp ∧ (s.fireWatchdog).zt = s.zt ∧ (s.fireWatchdog).ir = s.ir ∧ (s.fireWatchdog).pd = s.pd ∧
      (s.fireWatchdog).sm = s.sm ∧ (s.fireWatchdog).tb = s.tb ∧ (s.fireWatchdog).ps = s.ps ∧ (s.fireWatchdog).cl = s.cl ∧
      (s.fireWatchdog).rc = s.rc ∧ (s.fireWatchdog).pins = s.pins ∧ (s.fireWatchdog).freeDraws = s.freeDraws ∧
      (s.fireWatchdog).pending = s.pending := by
  simp only [State.fireWatchdog]
  (repeat' split) <;> simp

@[simp] theorem State.presentMissing_frame (s : State) :
    (s.presentMissing).rt = s.rt ∧ (s.presentMissing).lc = s.lc ∧ (s.presentMissing).pt = s.pt ∧ (s.presentMissing).st = s.st ∧
      (s.presentMissing).sp = s.sp ∧ (s.presentMissing).zt = s.zt ∧ (s.presentMissing).ir = s.ir ∧ (s.presentMissing).om = s.om ∧
      (s.presentMissing).sm = s.sm ∧ (s.presentMissing).tb = s.tb ∧ (s.presentMissing).ps = s.ps ∧ (s.presentMissing).cl = s.cl ∧
      (s.presentMissing).rc = s.rc ∧ (s.presentMissing).pins = s.pins ∧ (s.presentMissing).freeDraws = s.freeDraws ∧
      (s.presentMissing).pending = s.pending := by
  simp only [State.presentMissing]
  (repeat' split) <;> simp

@[simp] theorem State.countMissing_frame (s : State) :
    (s.countMissing).rt = s.rt ∧ (s.countMissing).lc = s.lc ∧ (s.countMissing).pt = s.pt ∧ (s.countMissing).st = s.st ∧
      (s.countMissing).sp = s.sp ∧ (s.countMissing).zt = s.zt ∧ (s.countMissing).ir = s.ir ∧ (s.countMissing).pd = s.pd ∧
      (s.countMissing).sm = s.sm ∧ (s.countMissing).tb = s.tb ∧ (s.countMissing).ps = s.ps ∧ (s.countMissing).cl = s.cl ∧
      (s.countMissing).rc = s.rc ∧ (s.countMissing).pins = s.pins ∧ (s.countMissing).freeDraws = s.freeDraws ∧
      (s.countMissing).pending = s.pending := by
  simp only [State.countMissing]
  (repeat' split) <;> simp

@[simp] theorem State.presentRunning_frame (s : State) (e : RingEntry) :
    (s.presentRunning e).rt = s.rt ∧ (s.presentRunning e).lc = s.lc ∧ (s.presentRunning e).pt = s.pt ∧ (s.presentRunning e).st = s.st ∧
      (s.presentRunning e).sp = s.sp ∧ (s.presentRunning e).zt = s.zt ∧ (s.presentRunning e).ir = s.ir ∧ (s.presentRunning e).sm = s.sm ∧
      (s.presentRunning e).tb = s.tb ∧ (s.presentRunning e).ps = s.ps ∧ (s.presentRunning e).cl = s.cl ∧ (s.presentRunning e).rc = s.rc ∧
      (s.presentRunning e).pins = s.pins ∧ (s.presentRunning e).freeDraws = s.freeDraws ∧ (s.presentRunning e).pending = s.pending := by
  simp only [State.presentRunning]
  (repeat' split) <;> simp

@[simp] theorem State.presentFilling_frame (s : State) (r : RoundNo) (e : RingEntry) :
    (s.presentFilling r e).rt = s.rt ∧ (s.presentFilling r e).lc = s.lc ∧ (s.presentFilling r e).pt = s.pt ∧
      (s.presentFilling r e).st = s.st ∧ (s.presentFilling r e).sp = s.sp ∧ (s.presentFilling r e).zt = s.zt ∧
      (s.presentFilling r e).ir = s.ir ∧ (s.presentFilling r e).sm = s.sm ∧ (s.presentFilling r e).tb = s.tb ∧
      (s.presentFilling r e).ps = s.ps ∧ (s.presentFilling r e).cl = s.cl ∧ (s.presentFilling r e).rc = s.rc ∧
      (s.presentFilling r e).pins = s.pins ∧ (s.presentFilling r e).freeDraws = s.freeDraws ∧ (s.presentFilling r e).pending = s.pending := by
  simp only [State.presentFilling]
  (repeat' split) <;> simp

@[simp] theorem State.present_frame (s : State) :
    (s.present).rt = s.rt ∧ (s.present).lc = s.lc ∧ (s.present).pt = s.pt ∧ (s.present).st = s.st ∧ (s.present).sp = s.sp ∧
      (s.present).zt = s.zt ∧ (s.present).ir = s.ir ∧ (s.present).sm = s.sm ∧ (s.present).tb = s.tb ∧ (s.present).ps = s.ps ∧
      (s.present).cl = s.cl ∧ (s.present).rc = s.rc ∧ (s.present).pins = s.pins ∧ (s.present).freeDraws = s.freeDraws ∧
      (s.present).pending = s.pending := by
  simp only [State.present]
  (repeat' split) <;> simp

@[simp] theorem State.putInput_frame (s : State) (id : InputId) (r : InputRecord) :
    (s.putInput id r).rt = s.rt ∧ (s.putInput id r).st = s.st ∧ (s.putInput id r).sr = s.sr ∧ (s.putInput id r).zt = s.zt ∧
      (s.putInput id r).pd = s.pd ∧ (s.putInput id r).mm = s.mm ∧ (s.putInput id r).om = s.om ∧ (s.putInput id r).sm = s.sm ∧
      (s.putInput id r).tb = s.tb ∧ (s.putInput id r).ps = s.ps ∧ (s.putInput id r).cl = s.cl ∧ (s.putInput id r).rc = s.rc ∧
      (s.putInput id r).pins = s.pins ∧ (s.putInput id r).freeDraws = s.freeDraws ∧ (s.putInput id r).pending = s.pending := by
  simp [State.putInput]

@[simp] theorem State.inputRound_frame (s : State) (id : InputId) (h : InputRound) (lr : LocalRound) :
    (s.inputRound id h lr).rt = s.rt ∧ (s.inputRound id h lr).st = s.st ∧ (s.inputRound id h lr).sr = s.sr ∧
      (s.inputRound id h lr).zt = s.zt ∧ (s.inputRound id h lr).pd = s.pd ∧ (s.inputRound id h lr).mm = s.mm ∧
      (s.inputRound id h lr).om = s.om ∧ (s.inputRound id h lr).sm = s.sm ∧ (s.inputRound id h lr).tb = s.tb ∧
      (s.inputRound id h lr).ps = s.ps ∧ (s.inputRound id h lr).cl = s.cl ∧ (s.inputRound id h lr).rc = s.rc ∧
      (s.inputRound id h lr).pins = s.pins ∧ (s.inputRound id h lr).freeDraws = s.freeDraws ∧ (s.inputRound id h lr).pending = s.pending := by
  simp only [State.inputRound]
  (repeat' split) <;> simp

@[simp] theorem State.inputClose_frame (s : State) (id : InputId) :
    (s.inputClose id).rt = s.rt ∧ (s.inputClose id).lc = s.lc ∧ (s.inputClose id).pt = s.pt ∧ (s.inputClose id).st = s.st ∧
      (s.inputClose id).sr = s.sr ∧ (s.inputClose id).zt = s.zt ∧ (s.inputClose id).pd = s.pd ∧ (s.inputClose id).mm = s.mm ∧
      (s.inputClose id).om = s.om ∧ (s.inputClose id).sm = s.sm ∧ (s.inputClose id).tb = s.tb ∧ (s.inputClose id).ps = s.ps ∧
      (s.inputClose id).cl = s.cl ∧ (s.inputClose id).cr = s.cr ∧ (s.inputClose id).rc = s.rc ∧ (s.inputClose id).pins = s.pins ∧
      (s.inputClose id).freeDraws = s.freeDraws ∧ (s.inputClose id).pending = s.pending := by
  simp [State.inputClose]

@[simp] theorem State.powerInput_frame (s : State) (id : InputId) :
    (s.powerInput id).rt = s.rt ∧ (s.powerInput id).st = s.st ∧ (s.powerInput id).sr = s.sr ∧ (s.powerInput id).zt = s.zt ∧
      (s.powerInput id).pd = s.pd ∧ (s.powerInput id).mm = s.mm ∧ (s.powerInput id).om = s.om ∧ (s.powerInput id).sm = s.sm ∧
      (s.powerInput id).tb = s.tb ∧ (s.powerInput id).ps = s.ps ∧ (s.powerInput id).cl = s.cl ∧ (s.powerInput id).rc = s.rc ∧
      (s.powerInput id).pins = s.pins ∧ (s.powerInput id).freeDraws = s.freeDraws ∧ (s.powerInput id).pending = s.pending := by
  simp only [State.powerInput]
  (repeat' split) <;> simp

@[simp] theorem State.unpowerInput_frame (s : State) (id : InputId) :
    (s.unpowerInput id).rt = s.rt ∧ (s.unpowerInput id).st = s.st ∧ (s.unpowerInput id).sr = s.sr ∧ (s.unpowerInput id).zt = s.zt ∧
      (s.unpowerInput id).pd = s.pd ∧ (s.unpowerInput id).mm = s.mm ∧ (s.unpowerInput id).om = s.om ∧ (s.unpowerInput id).sm = s.sm ∧
      (s.unpowerInput id).tb = s.tb ∧ (s.unpowerInput id).ps = s.ps ∧ (s.unpowerInput id).cl = s.cl ∧ (s.unpowerInput id).rc = s.rc ∧
      (s.unpowerInput id).pins = s.pins ∧ (s.unpowerInput id).freeDraws = s.freeDraws ∧ (s.unpowerInput id).pending = s.pending := by
  simp [State.unpowerInput]

@[simp] theorem State.atInput_frame (s : State) (id : InputId) (f : InputRecord → InputRecord) :
    (s.atInput id f).rt = s.rt ∧ (s.atInput id f).st = s.st ∧ (s.atInput id f).sr = s.sr ∧ (s.atInput id f).zt = s.zt ∧
      (s.atInput id f).pd = s.pd ∧ (s.atInput id f).mm = s.mm ∧ (s.atInput id f).om = s.om ∧ (s.atInput id f).sm = s.sm ∧
      (s.atInput id f).tb = s.tb ∧ (s.atInput id f).ps = s.ps ∧ (s.atInput id f).cl = s.cl ∧ (s.atInput id f).rc = s.rc ∧
      (s.atInput id f).pins = s.pins ∧ (s.atInput id f).freeDraws = s.freeDraws ∧ (s.atInput id f).pending = s.pending := by
  simp only [State.atInput]
  (repeat' split) <;> simp

end Sys2Proof.Machine
end

