-- ==== Sys2Proof/Laws/FramesRadio.lean ====
section
/-! SUPPORT. Laws of the state: what the operations of the preset store and the tuner, and the requests to them, leave unchanged. -/

namespace Sys2Proof.Machine

@[simp] theorem State.takeEntries_frame (s : State) (q : List StoreEntry) :
    (s.takeEntries q).rt = s.rt ∧ (s.takeEntries q).pt = s.pt ∧ (s.takeEntries q).st = s.st ∧ (s.takeEntries q).sp = s.sp ∧
      (s.takeEntries q).sr = s.sr ∧ (s.takeEntries q).zt = s.zt ∧ (s.takeEntries q).ir = s.ir ∧ (s.takeEntries q).pd = s.pd ∧
      (s.takeEntries q).mm = s.mm ∧ (s.takeEntries q).om = s.om ∧ (s.takeEntries q).sm = s.sm ∧ (s.takeEntries q).tb = s.tb ∧
      (s.takeEntries q).cl = s.cl ∧ (s.takeEntries q).cr = s.cr ∧ (s.takeEntries q).rc = s.rc ∧ (s.takeEntries q).pins = s.pins ∧
      (s.takeEntries q).freeDraws = s.freeDraws ∧ (s.takeEntries q).pending = s.pending := by
  induction q generalizing s with
  | nil => simp [State.takeEntries]
  | cons e rest ih =>
    unfold State.takeEntries
    (repeat' split) <;> simp [ih]

@[simp] theorem State.engineBegin_frame (s : State) :
    (s.engineBegin).rt = s.rt ∧ (s.engineBegin).pt = s.pt ∧ (s.engineBegin).st = s.st ∧ (s.engineBegin).sp = s.sp ∧
      (s.engineBegin).sr = s.sr ∧ (s.engineBegin).zt = s.zt ∧ (s.engineBegin).ir = s.ir ∧ (s.engineBegin).pd = s.pd ∧
      (s.engineBegin).mm = s.mm ∧ (s.engineBegin).om = s.om ∧ (s.engineBegin).sm = s.sm ∧ (s.engineBegin).tb = s.tb ∧
      (s.engineBegin).cl = s.cl ∧ (s.engineBegin).cr = s.cr ∧ (s.engineBegin).rc = s.rc ∧ (s.engineBegin).pins = s.pins ∧
      (s.engineBegin).freeDraws = s.freeDraws ∧ (s.engineBegin).pending = s.pending := by
  simp only [State.engineBegin]
  (repeat' split) <;> simp

@[simp] theorem State.commit_frame (s : State) (p : Programming) :
    (s.commit p).rt = s.rt ∧ (s.commit p).pt = s.pt ∧ (s.commit p).st = s.st ∧ (s.commit p).sp = s.sp ∧ (s.commit p).sr = s.sr ∧
      (s.commit p).zt = s.zt ∧ (s.commit p).ir = s.ir ∧ (s.commit p).pd = s.pd ∧ (s.commit p).mm = s.mm ∧ (s.commit p).om = s.om ∧
      (s.commit p).sm = s.sm ∧ (s.commit p).tb = s.tb ∧ (s.commit p).cl = s.cl ∧ (s.commit p).cr = s.cr ∧ (s.commit p).rc = s.rc ∧
      (s.commit p).pins = s.pins ∧ (s.commit p).freeDraws = s.freeDraws ∧ (s.commit p).pending = s.pending := by
  simp only [State.commit]
  (repeat' split) <;> simp

@[simp] theorem State.supersede_frame (s : State) (r : SlotRef) :
    (s.supersede r).rt = s.rt ∧ (s.supersede r).pt = s.pt ∧ (s.supersede r).st = s.st ∧ (s.supersede r).sp = s.sp ∧
      (s.supersede r).sr = s.sr ∧ (s.supersede r).zt = s.zt ∧ (s.supersede r).ir = s.ir ∧ (s.supersede r).pd = s.pd ∧
      (s.supersede r).mm = s.mm ∧ (s.supersede r).om = s.om ∧ (s.supersede r).sm = s.sm ∧ (s.supersede r).tb = s.tb ∧
      (s.supersede r).cl = s.cl ∧ (s.supersede r).cr = s.cr ∧ (s.supersede r).rc = s.rc ∧ (s.supersede r).pins = s.pins ∧
      (s.supersede r).freeDraws = s.freeDraws ∧ (s.supersede r).pending = s.pending := by
  simp [State.supersede]

@[simp] theorem State.endErase_frame (s : State) (c : Compaction) :
    (s.endErase c).rt = s.rt ∧ (s.endErase c).pt = s.pt ∧ (s.endErase c).st = s.st ∧ (s.endErase c).sp = s.sp ∧
      (s.endErase c).sr = s.sr ∧ (s.endErase c).zt = s.zt ∧ (s.endErase c).ir = s.ir ∧ (s.endErase c).pd = s.pd ∧
      (s.endErase c).mm = s.mm ∧ (s.endErase c).om = s.om ∧ (s.endErase c).sm = s.sm ∧ (s.endErase c).tb = s.tb ∧
      (s.endErase c).cl = s.cl ∧ (s.endErase c).cr = s.cr ∧ (s.endErase c).rc = s.rc ∧ (s.endErase c).pins = s.pins ∧
      (s.endErase c).freeDraws = s.freeDraws ∧ (s.endErase c).pending = s.pending := by
  simp [State.endErase]

@[simp] theorem State.endCopy_frame (s : State) (c : Compaction) :
    (s.endCopy c).rt = s.rt ∧ (s.endCopy c).pt = s.pt ∧ (s.endCopy c).st = s.st ∧ (s.endCopy c).sp = s.sp ∧ (s.endCopy c).sr = s.sr ∧
      (s.endCopy c).zt = s.zt ∧ (s.endCopy c).ir = s.ir ∧ (s.endCopy c).pd = s.pd ∧ (s.endCopy c).mm = s.mm ∧ (s.endCopy c).om = s.om ∧
      (s.endCopy c).sm = s.sm ∧ (s.endCopy c).tb = s.tb ∧ (s.endCopy c).cl = s.cl ∧ (s.endCopy c).cr = s.cr ∧ (s.endCopy c).rc = s.rc ∧
      (s.endCopy c).pins = s.pins ∧ (s.endCopy c).freeDraws = s.freeDraws ∧ (s.endCopy c).pending = s.pending := by
  simp [State.endCopy]

@[simp] theorem State.endHeader_frame (s : State) (c : Compaction) :
    (s.endHeader c).rt = s.rt ∧ (s.endHeader c).pt = s.pt ∧ (s.endHeader c).st = s.st ∧ (s.endHeader c).sp = s.sp ∧
      (s.endHeader c).sr = s.sr ∧ (s.endHeader c).zt = s.zt ∧ (s.endHeader c).ir = s.ir ∧ (s.endHeader c).pd = s.pd ∧
      (s.endHeader c).mm = s.mm ∧ (s.endHeader c).om = s.om ∧ (s.endHeader c).sm = s.sm ∧ (s.endHeader c).tb = s.tb ∧
      (s.endHeader c).cl = s.cl ∧ (s.endHeader c).cr = s.cr ∧ (s.endHeader c).rc = s.rc ∧ (s.endHeader c).pins = s.pins ∧
      (s.endHeader c).freeDraws = s.freeDraws ∧ (s.endHeader c).pending = s.pending := by
  simp [State.endHeader]

@[simp] theorem State.enterRead_frame (s : State) (r : Read) :
    (s.enterRead r).rt = s.rt ∧ (s.enterRead r).lc = s.lc ∧ (s.enterRead r).pt = s.pt ∧ (s.enterRead r).st = s.st ∧
      (s.enterRead r).sp = s.sp ∧ (s.enterRead r).sr = s.sr ∧ (s.enterRead r).zt = s.zt ∧ (s.enterRead r).ir = s.ir ∧
      (s.enterRead r).pd = s.pd ∧ (s.enterRead r).mm = s.mm ∧ (s.enterRead r).om = s.om ∧ (s.enterRead r).sm = s.sm ∧
      (s.enterRead r).tb = s.tb ∧ (s.enterRead r).cl = s.cl ∧ (s.enterRead r).cr = s.cr ∧ (s.enterRead r).rc = s.rc ∧
      (s.enterRead r).pins = s.pins ∧ (s.enterRead r).pending = s.pending := by
  simp only [State.enterRead]
  (repeat' split) <;> simp

@[simp] theorem State.answerRead_frame (s : State) (n : Fin 30) (r : Requester) :
    (s.answerRead n r).rt = s.rt ∧ (s.answerRead n r).pt = s.pt ∧ (s.answerRead n r).st = s.st ∧ (s.answerRead n r).sp = s.sp ∧
      (s.answerRead n r).sr = s.sr ∧ (s.answerRead n r).zt = s.zt ∧ (s.answerRead n r).ir = s.ir ∧ (s.answerRead n r).pd = s.pd ∧
      (s.answerRead n r).mm = s.mm ∧ (s.answerRead n r).om = s.om ∧ (s.answerRead n r).sm = s.sm ∧ (s.answerRead n r).tb = s.tb ∧
      (s.answerRead n r).ps = s.ps ∧ (s.answerRead n r).cl = s.cl ∧ (s.answerRead n r).cr = s.cr ∧ (s.answerRead n r).rc = s.rc ∧
      (s.answerRead n r).pins = s.pins ∧ (s.answerRead n r).freeDraws = s.freeDraws ∧ (s.answerRead n r).pending = s.pending := by
  simp only [State.answerRead]
  (repeat' split) <;> simp

@[simp] theorem State.endOperation_frame (s : State) (op : Operation) (o : ReplyOutcome) (v : Option Nat) :
    (s.endOperation op o v).rt = s.rt ∧ (s.endOperation op o v).pt = s.pt ∧ (s.endOperation op o v).st = s.st ∧
      (s.endOperation op o v).sp = s.sp ∧ (s.endOperation op o v).sr = s.sr ∧ (s.endOperation op o v).zt = s.zt ∧
      (s.endOperation op o v).ir = s.ir ∧ (s.endOperation op o v).pd = s.pd ∧ (s.endOperation op o v).mm = s.mm ∧
      (s.endOperation op o v).om = s.om ∧ (s.endOperation op o v).sm = s.sm ∧ (s.endOperation op o v).ps = s.ps ∧
      (s.endOperation op o v).cl = s.cl ∧ (s.endOperation op o v).cr = s.cr ∧ (s.endOperation op o v).rc = s.rc ∧
      (s.endOperation op o v).pins = s.pins ∧ (s.endOperation op o v).freeDraws = s.freeDraws ∧
      (s.endOperation op o v).pending = s.pending := by
  simp [State.endOperation]

@[simp] theorem State.abortOperation_frame (s : State) :
    (s.abortOperation).rt = s.rt ∧ (s.abortOperation).pt = s.pt ∧ (s.abortOperation).st = s.st ∧ (s.abortOperation).sp = s.sp ∧
      (s.abortOperation).sr = s.sr ∧ (s.abortOperation).zt = s.zt ∧ (s.abortOperation).ir = s.ir ∧ (s.abortOperation).pd = s.pd ∧
      (s.abortOperation).mm = s.mm ∧ (s.abortOperation).om = s.om ∧ (s.abortOperation).sm = s.sm ∧ (s.abortOperation).cl = s.cl ∧
      (s.abortOperation).cr = s.cr ∧ (s.abortOperation).rc = s.rc ∧ (s.abortOperation).pins = s.pins ∧
      (s.abortOperation).freeDraws = s.freeDraws ∧ (s.abortOperation).pending = s.pending := by
  simp only [State.abortOperation]
  (repeat' split) <;> simp

@[simp] theorem State.stepOperation_frame (s : State) (op : Operation) (g : Stage) (f : Nat) :
    (s.stepOperation op g f).rt = s.rt ∧ (s.stepOperation op g f).lc = s.lc ∧ (s.stepOperation op g f).pt = s.pt ∧
      (s.stepOperation op g f).st = s.st ∧ (s.stepOperation op g f).sp = s.sp ∧ (s.stepOperation op g f).sr = s.sr ∧
      (s.stepOperation op g f).zt = s.zt ∧ (s.stepOperation op g f).ir = s.ir ∧ (s.stepOperation op g f).pd = s.pd ∧
      (s.stepOperation op g f).mm = s.mm ∧ (s.stepOperation op g f).om = s.om ∧ (s.stepOperation op g f).sm = s.sm ∧
      (s.stepOperation op g f).ps = s.ps ∧ (s.stepOperation op g f).cl = s.cl ∧ (s.stepOperation op g f).cr = s.cr ∧
      (s.stepOperation op g f).rc = s.rc ∧ (s.stepOperation op g f).pins = s.pins ∧ (s.stepOperation op g f).freeDraws = s.freeDraws ∧
      (s.stepOperation op g f).pending = s.pending := by
  simp [State.stepOperation]

@[simp] theorem State.listenAndEnd_frame (s : State) (op : Operation) (c : Counter) (o : ReplyOutcome) (v : Option Nat) :
    (s.listenAndEnd op c o v).rt = s.rt ∧ (s.listenAndEnd op c o v).pt = s.pt ∧ (s.listenAndEnd op c o v).st = s.st ∧
      (s.listenAndEnd op c o v).sp = s.sp ∧ (s.listenAndEnd op c o v).sr = s.sr ∧ (s.listenAndEnd op c o v).zt = s.zt ∧
      (s.listenAndEnd op c o v).ir = s.ir ∧ (s.listenAndEnd op c o v).pd = s.pd ∧ (s.listenAndEnd op c o v).mm = s.mm ∧
      (s.listenAndEnd op c o v).om = s.om ∧ (s.listenAndEnd op c o v).sm = s.sm ∧ (s.listenAndEnd op c o v).ps = s.ps ∧
      (s.listenAndEnd op c o v).cl = s.cl ∧ (s.listenAndEnd op c o v).cr = s.cr ∧ (s.listenAndEnd op c o v).rc = s.rc ∧
      (s.listenAndEnd op c o v).pins = s.pins ∧ (s.listenAndEnd op c o v).freeDraws = s.freeDraws ∧
      (s.listenAndEnd op c o v).pending = s.pending := by
  simp [State.listenAndEnd]

@[simp] theorem State.seekClose_frame (s : State) (op : Operation) (c : Counter) :
    (s.seekClose op c).rt = s.rt ∧ (s.seekClose op c).pt = s.pt ∧ (s.seekClose op c).st = s.st ∧ (s.seekClose op c).sp = s.sp ∧
      (s.seekClose op c).sr = s.sr ∧ (s.seekClose op c).zt = s.zt ∧ (s.seekClose op c).ir = s.ir ∧ (s.seekClose op c).pd = s.pd ∧
      (s.seekClose op c).mm = s.mm ∧ (s.seekClose op c).om = s.om ∧ (s.seekClose op c).sm = s.sm ∧ (s.seekClose op c).ps = s.ps ∧
      (s.seekClose op c).cl = s.cl ∧ (s.seekClose op c).cr = s.cr ∧ (s.seekClose op c).rc = s.rc ∧ (s.seekClose op c).pins = s.pins ∧
      (s.seekClose op c).freeDraws = s.freeDraws ∧ (s.seekClose op c).pending = s.pending := by
  simp only [State.seekClose]
  (repeat' split) <;> simp

@[simp] theorem State.scanClose_frame (s : State) (op : Operation) :
    (s.scanClose op).rt = s.rt ∧ (s.scanClose op).lc = s.lc ∧ (s.scanClose op).pt = s.pt ∧ (s.scanClose op).st = s.st ∧
      (s.scanClose op).sp = s.sp ∧ (s.scanClose op).sr = s.sr ∧ (s.scanClose op).zt = s.zt ∧ (s.scanClose op).ir = s.ir ∧
      (s.scanClose op).pd = s.pd ∧ (s.scanClose op).mm = s.mm ∧ (s.scanClose op).om = s.om ∧ (s.scanClose op).sm = s.sm ∧
      (s.scanClose op).ps = s.ps ∧ (s.scanClose op).cl = s.cl ∧ (s.scanClose op).cr = s.cr ∧ (s.scanClose op).rc = s.rc ∧
      (s.scanClose op).pins = s.pins ∧ (s.scanClose op).freeDraws = s.freeDraws ∧ (s.scanClose op).pending = s.pending := by
  simp only [State.scanClose]
  (repeat' split) <;> simp

@[simp] theorem State.actOnMeasurement_frame (s : State) (c : Counter) :
    (s.actOnMeasurement c).rt = s.rt ∧ (s.actOnMeasurement c).pt = s.pt ∧ (s.actOnMeasurement c).st = s.st ∧
      (s.actOnMeasurement c).sp = s.sp ∧ (s.actOnMeasurement c).sr = s.sr ∧ (s.actOnMeasurement c).zt = s.zt ∧
      (s.actOnMeasurement c).ir = s.ir ∧ (s.actOnMeasurement c).pd = s.pd ∧ (s.actOnMeasurement c).mm = s.mm ∧
      (s.actOnMeasurement c).om = s.om ∧ (s.actOnMeasurement c).sm = s.sm ∧ (s.actOnMeasurement c).ps = s.ps ∧
      (s.actOnMeasurement c).cl = s.cl ∧ (s.actOnMeasurement c).cr = s.cr ∧ (s.actOnMeasurement c).rc = s.rc ∧
      (s.actOnMeasurement c).pins = s.pins ∧ (s.actOnMeasurement c).freeDraws = s.freeDraws ∧ (s.actOnMeasurement c).pending = s.pending := by
  simp only [State.actOnMeasurement]
  (repeat' split) <;> simp

@[simp] theorem State.gateCloses_frame (s : State) (c : Counter) :
    (s.gateCloses c).rt = s.rt ∧ (s.gateCloses c).pt = s.pt ∧ (s.gateCloses c).st = s.st ∧ (s.gateCloses c).sp = s.sp ∧
      (s.gateCloses c).sr = s.sr ∧ (s.gateCloses c).zt = s.zt ∧ (s.gateCloses c).ir = s.ir ∧ (s.gateCloses c).pd = s.pd ∧
      (s.gateCloses c).mm = s.mm ∧ (s.gateCloses c).om = s.om ∧ (s.gateCloses c).sm = s.sm ∧ (s.gateCloses c).ps = s.ps ∧
      (s.gateCloses c).cl = s.cl ∧ (s.gateCloses c).cr = s.cr ∧ (s.gateCloses c).rc = s.rc ∧ (s.gateCloses c).pins = s.pins ∧
      (s.gateCloses c).pending = s.pending := by
  simp only [State.gateCloses]
  (repeat' split) <;> simp

@[simp] theorem State.phaseStep_frame (s : State) :
    (s.phaseStep).rt = s.rt ∧ (s.phaseStep).pt = s.pt ∧ (s.phaseStep).st = s.st ∧ (s.phaseStep).sp = s.sp ∧ (s.phaseStep).sr = s.sr ∧
      (s.phaseStep).zt = s.zt ∧ (s.phaseStep).ir = s.ir ∧ (s.phaseStep).pd = s.pd ∧ (s.phaseStep).mm = s.mm ∧ (s.phaseStep).om = s.om ∧
      (s.phaseStep).sm = s.sm ∧ (s.phaseStep).ps = s.ps ∧ (s.phaseStep).cl = s.cl ∧ (s.phaseStep).cr = s.cr ∧ (s.phaseStep).rc = s.rc ∧
      (s.phaseStep).pins = s.pins ∧ (s.phaseStep).pending = s.pending := by
  simp only [State.phaseStep]
  (repeat' split) <;> simp

@[simp] theorem State.tunerRound_frame (s : State) (fe : FrontEnd) (d : Demodulated) :
    (s.tunerRound fe d).rt = s.rt ∧ (s.tunerRound fe d).pt = s.pt ∧ (s.tunerRound fe d).st = s.st ∧ (s.tunerRound fe d).sr = s.sr ∧
      (s.tunerRound fe d).zt = s.zt ∧ (s.tunerRound fe d).ir = s.ir ∧ (s.tunerRound fe d).pd = s.pd ∧ (s.tunerRound fe d).mm = s.mm ∧
      (s.tunerRound fe d).om = s.om ∧ (s.tunerRound fe d).sm = s.sm ∧ (s.tunerRound fe d).ps = s.ps ∧ (s.tunerRound fe d).cl = s.cl ∧
      (s.tunerRound fe d).cr = s.cr ∧ (s.tunerRound fe d).rc = s.rc ∧ (s.tunerRound fe d).pins = s.pins ∧
      (s.tunerRound fe d).pending = s.pending := by
  simp only [State.tunerRound]
  (repeat' split) <;> simp

@[simp] theorem State.tunerClose_frame (s : State) :
    (s.tunerClose).rt = s.rt ∧ (s.tunerClose).lc = s.lc ∧ (s.tunerClose).pt = s.pt ∧ (s.tunerClose).st = s.st ∧
      (s.tunerClose).sr = s.sr ∧ (s.tunerClose).zt = s.zt ∧ (s.tunerClose).ir = s.ir ∧ (s.tunerClose).pd = s.pd ∧
      (s.tunerClose).mm = s.mm ∧ (s.tunerClose).om = s.om ∧ (s.tunerClose).sm = s.sm ∧ (s.tunerClose).ps = s.ps ∧
      (s.tunerClose).cl = s.cl ∧ (s.tunerClose).cr = s.cr ∧ (s.tunerClose).rc = s.rc ∧ (s.tunerClose).pins = s.pins ∧
      (s.tunerClose).freeDraws = s.freeDraws ∧ (s.tunerClose).pending = s.pending := by
  simp only [State.tunerClose]
  (repeat' split) <;> simp

@[simp] theorem State.setHolders_frame (s : State) (h : List Zone) :
    (s.setHolders h).rt = s.rt ∧ (s.setHolders h).lc = s.lc ∧ (s.setHolders h).pt = s.pt ∧ (s.setHolders h).st = s.st ∧
      (s.setHolders h).sp = s.sp ∧ (s.setHolders h).sr = s.sr ∧ (s.setHolders h).zt = s.zt ∧ (s.setHolders h).ir = s.ir ∧
      (s.setHolders h).pd = s.pd ∧ (s.setHolders h).mm = s.mm ∧ (s.setHolders h).om = s.om ∧ (s.setHolders h).sm = s.sm ∧
      (s.setHolders h).ps = s.ps ∧ (s.setHolders h).cl = s.cl ∧ (s.setHolders h).cr = s.cr ∧ (s.setHolders h).rc = s.rc ∧
      (s.setHolders h).pins = s.pins ∧ (s.setHolders h).freeDraws = s.freeDraws ∧ (s.setHolders h).pending = s.pending := by
  simp only [State.setHolders]
  (repeat' split) <;> simp

@[simp] theorem State.moveHolder_frame (s : State) (z : Zone) (old new : Option Stream) :
    (s.moveHolder z old new).rt = s.rt ∧ (s.moveHolder z old new).lc = s.lc ∧ (s.moveHolder z old new).pt = s.pt ∧
      (s.moveHolder z old new).st = s.st ∧ (s.moveHolder z old new).sp = s.sp ∧ (s.moveHolder z old new).sr = s.sr ∧
      (s.moveHolder z old new).zt = s.zt ∧ (s.moveHolder z old new).ir = s.ir ∧ (s.moveHolder z old new).pd = s.pd ∧
      (s.moveHolder z old new).mm = s.mm ∧ (s.moveHolder z old new).om = s.om ∧ (s.moveHolder z old new).sm = s.sm ∧
      (s.moveHolder z old new).ps = s.ps ∧ (s.moveHolder z old new).cl = s.cl ∧ (s.moveHolder z old new).cr = s.cr ∧
      (s.moveHolder z old new).rc = s.rc ∧ (s.moveHolder z old new).pins = s.pins ∧ (s.moveHolder z old new).freeDraws = s.freeDraws ∧
      (s.moveHolder z old new).pending = s.pending := by
  simp only [State.moveHolder]
  (repeat' split) <;> simp

@[simp] theorem State.rebuildHolders_frame (s : State) :
    (s.rebuildHolders).rt = s.rt ∧ (s.rebuildHolders).lc = s.lc ∧ (s.rebuildHolders).pt = s.pt ∧ (s.rebuildHolders).st = s.st ∧
      (s.rebuildHolders).sp = s.sp ∧ (s.rebuildHolders).sr = s.sr ∧ (s.rebuildHolders).zt = s.zt ∧ (s.rebuildHolders).ir = s.ir ∧
      (s.rebuildHolders).pd = s.pd ∧ (s.rebuildHolders).mm = s.mm ∧ (s.rebuildHolders).om = s.om ∧ (s.rebuildHolders).sm = s.sm ∧
      (s.rebuildHolders).ps = s.ps ∧ (s.rebuildHolders).cl = s.cl ∧ (s.rebuildHolders).cr = s.cr ∧ (s.rebuildHolders).rc = s.rc ∧
      (s.rebuildHolders).pins = s.pins ∧ (s.rebuildHolders).freeDraws = s.freeDraws ∧ (s.rebuildHolders).pending = s.pending := by
  simp [State.rebuildHolders]

@[simp] theorem State.wakeTuner_frame (s : State) :
    (s.wakeTuner).rt = s.rt ∧ (s.wakeTuner).lc = s.lc ∧ (s.wakeTuner).pt = s.pt ∧ (s.wakeTuner).st = s.st ∧ (s.wakeTuner).sp = s.sp ∧
      (s.wakeTuner).sr = s.sr ∧ (s.wakeTuner).zt = s.zt ∧ (s.wakeTuner).ir = s.ir ∧ (s.wakeTuner).pd = s.pd ∧ (s.wakeTuner).mm = s.mm ∧
      (s.wakeTuner).om = s.om ∧ (s.wakeTuner).sm = s.sm ∧ (s.wakeTuner).ps = s.ps ∧ (s.wakeTuner).cl = s.cl ∧ (s.wakeTuner).cr = s.cr ∧
      (s.wakeTuner).rc = s.rc ∧ (s.wakeTuner).pins = s.pins ∧ (s.wakeTuner).freeDraws = s.freeDraws ∧ (s.wakeTuner).pending = s.pending := by
  simp only [State.wakeTuner]
  (repeat' split) <;> simp

@[simp] theorem State.stopTuner_frame (s : State) :
    (s.stopTuner).rt = s.rt ∧ (s.stopTuner).pt = s.pt ∧ (s.stopTuner).st = s.st ∧ (s.stopTuner).sp = s.sp ∧ (s.stopTuner).sr = s.sr ∧
      (s.stopTuner).zt = s.zt ∧ (s.stopTuner).ir = s.ir ∧ (s.stopTuner).pd = s.pd ∧ (s.stopTuner).mm = s.mm ∧ (s.stopTuner).om = s.om ∧
      (s.stopTuner).sm = s.sm ∧ (s.stopTuner).cl = s.cl ∧ (s.stopTuner).cr = s.cr ∧ (s.stopTuner).rc = s.rc ∧
      (s.stopTuner).pins = s.pins ∧ (s.stopTuner).freeDraws = s.freeDraws ∧ (s.stopTuner).pending = s.pending := by
  simp [State.stopTuner]

@[simp] theorem State.startOperation_frame (s : State) (op : Operation) :
    (s.startOperation op).rt = s.rt ∧ (s.startOperation op).pt = s.pt ∧ (s.startOperation op).st = s.st ∧
      (s.startOperation op).sp = s.sp ∧ (s.startOperation op).sr = s.sr ∧ (s.startOperation op).zt = s.zt ∧
      (s.startOperation op).ir = s.ir ∧ (s.startOperation op).pd = s.pd ∧ (s.startOperation op).mm = s.mm ∧
      (s.startOperation op).om = s.om ∧ (s.startOperation op).sm = s.sm ∧ (s.startOperation op).cl = s.cl ∧
      (s.startOperation op).cr = s.cr ∧ (s.startOperation op).rc = s.rc ∧ (s.startOperation op).pins = s.pins ∧
      (s.startOperation op).freeDraws = s.freeDraws ∧ (s.startOperation op).pending = s.pending := by
  simp [State.startOperation]

@[simp] theorem State.startTune_frame (s : State) (r : Requester) (b : Band) (f : Nat) :
    (s.startTune r b f).rt = s.rt ∧ (s.startTune r b f).pt = s.pt ∧ (s.startTune r b f).st = s.st ∧ (s.startTune r b f).sp = s.sp ∧
      (s.startTune r b f).sr = s.sr ∧ (s.startTune r b f).zt = s.zt ∧ (s.startTune r b f).ir = s.ir ∧ (s.startTune r b f).pd = s.pd ∧
      (s.startTune r b f).mm = s.mm ∧ (s.startTune r b f).om = s.om ∧ (s.startTune r b f).sm = s.sm ∧ (s.startTune r b f).cl = s.cl ∧
      (s.startTune r b f).cr = s.cr ∧ (s.startTune r b f).rc = s.rc ∧ (s.startTune r b f).pins = s.pins ∧
      (s.startTune r b f).freeDraws = s.freeDraws ∧ (s.startTune r b f).pending = s.pending := by
  simp [State.startTune]

@[simp] theorem State.startSeek_frame (s : State) (r : Requester) (d : Direction) :
    (s.startSeek r d).rt = s.rt ∧ (s.startSeek r d).pt = s.pt ∧ (s.startSeek r d).st = s.st ∧ (s.startSeek r d).sp = s.sp ∧
      (s.startSeek r d).sr = s.sr ∧ (s.startSeek r d).zt = s.zt ∧ (s.startSeek r d).ir = s.ir ∧ (s.startSeek r d).pd = s.pd ∧
      (s.startSeek r d).mm = s.mm ∧ (s.startSeek r d).om = s.om ∧ (s.startSeek r d).sm = s.sm ∧ (s.startSeek r d).cl = s.cl ∧
      (s.startSeek r d).cr = s.cr ∧ (s.startSeek r d).rc = s.rc ∧ (s.startSeek r d).pins = s.pins ∧
      (s.startSeek r d).freeDraws = s.freeDraws ∧ (s.startSeek r d).pending = s.pending := by
  simp [State.startSeek]

@[simp] theorem State.startScan_frame (s : State) (r : Requester) :
    (s.startScan r).rt = s.rt ∧ (s.startScan r).pt = s.pt ∧ (s.startScan r).st = s.st ∧ (s.startScan r).sp = s.sp ∧
      (s.startScan r).sr = s.sr ∧ (s.startScan r).zt = s.zt ∧ (s.startScan r).ir = s.ir ∧ (s.startScan r).pd = s.pd ∧
      (s.startScan r).mm = s.mm ∧ (s.startScan r).om = s.om ∧ (s.startScan r).sm = s.sm ∧ (s.startScan r).cl = s.cl ∧
      (s.startScan r).cr = s.cr ∧ (s.startScan r).rc = s.rc ∧ (s.startScan r).pins = s.pins ∧ (s.startScan r).freeDraws = s.freeDraws ∧
      (s.startScan r).pending = s.pending := by
  simp [State.startScan]

@[simp] theorem State.recallResult_frame (s : State) (r : Option RecordSlot) :
    (s.recallResult r).rt = s.rt ∧ (s.recallResult r).pt = s.pt ∧ (s.recallResult r).st = s.st ∧ (s.recallResult r).sp = s.sp ∧
      (s.recallResult r).sr = s.sr ∧ (s.recallResult r).zt = s.zt ∧ (s.recallResult r).ir = s.ir ∧ (s.recallResult r).pd = s.pd ∧
      (s.recallResult r).mm = s.mm ∧ (s.recallResult r).om = s.om ∧ (s.recallResult r).sm = s.sm ∧ (s.recallResult r).ps = s.ps ∧
      (s.recallResult r).cl = s.cl ∧ (s.recallResult r).cr = s.cr ∧ (s.recallResult r).rc = s.rc ∧ (s.recallResult r).pins = s.pins ∧
      (s.recallResult r).freeDraws = s.freeDraws ∧ (s.recallResult r).pending = s.pending := by
  simp only [State.recallResult]
  (repeat' split) <;> simp

@[simp] theorem State.startRecall_frame (s : State) (r : Requester) (n : Fin 30) :
    (s.startRecall r n).rt = s.rt ∧ (s.startRecall r n).pt = s.pt ∧ (s.startRecall r n).st = s.st ∧ (s.startRecall r n).sp = s.sp ∧
      (s.startRecall r n).sr = s.sr ∧ (s.startRecall r n).zt = s.zt ∧ (s.startRecall r n).ir = s.ir ∧ (s.startRecall r n).pd = s.pd ∧
      (s.startRecall r n).mm = s.mm ∧ (s.startRecall r n).om = s.om ∧ (s.startRecall r n).sm = s.sm ∧ (s.startRecall r n).cl = s.cl ∧
      (s.startRecall r n).cr = s.cr ∧ (s.startRecall r n).rc = s.rc ∧ (s.startRecall r n).pins = s.pins ∧
      (s.startRecall r n).pending = s.pending := by
  simp only [State.startRecall]
  (repeat' split) <;> simp

@[simp] theorem State.deliverRead_frame (s : State) (r : Read) :
    (s.deliverRead r).rt = s.rt ∧ (s.deliverRead r).pt = s.pt ∧ (s.deliverRead r).st = s.st ∧ (s.deliverRead r).sp = s.sp ∧
      (s.deliverRead r).sr = s.sr ∧ (s.deliverRead r).zt = s.zt ∧ (s.deliverRead r).ir = s.ir ∧ (s.deliverRead r).pd = s.pd ∧
      (s.deliverRead r).mm = s.mm ∧ (s.deliverRead r).om = s.om ∧ (s.deliverRead r).sm = s.sm ∧ (s.deliverRead r).ps = s.ps ∧
      (s.deliverRead r).cl = s.cl ∧ (s.deliverRead r).cr = s.cr ∧ (s.deliverRead r).rc = s.rc ∧ (s.deliverRead r).pins = s.pins ∧
      (s.deliverRead r).freeDraws = s.freeDraws ∧ (s.deliverRead r).pending = s.pending := by
  simp only [State.deliverRead]
  (repeat' split) <;> simp

@[simp] theorem State.completeRead_frame (s : State) (r : Read) (rest : List Read) :
    (s.completeRead r rest).rt = s.rt ∧ (s.completeRead r rest).pt = s.pt ∧ (s.completeRead r rest).st = s.st ∧
      (s.completeRead r rest).sp = s.sp ∧ (s.completeRead r rest).sr = s.sr ∧ (s.completeRead r rest).zt = s.zt ∧
      (s.completeRead r rest).ir = s.ir ∧ (s.completeRead r rest).pd = s.pd ∧ (s.completeRead r rest).mm = s.mm ∧
      (s.completeRead r rest).om = s.om ∧ (s.completeRead r rest).sm = s.sm ∧ (s.completeRead r rest).cl = s.cl ∧
      (s.completeRead r rest).cr = s.cr ∧ (s.completeRead r rest).rc = s.rc ∧ (s.completeRead r rest).pins = s.pins ∧
      (s.completeRead r rest).freeDraws = s.freeDraws ∧ (s.completeRead r rest).pending = s.pending := by
  simp [State.completeRead]

@[simp] theorem State.acceptEntry_frame (s : State) (e : StoreEntry) :
    (s.acceptEntry e).rt = s.rt ∧ (s.acceptEntry e).pt = s.pt ∧ (s.acceptEntry e).st = s.st ∧ (s.acceptEntry e).sp = s.sp ∧
      (s.acceptEntry e).sr = s.sr ∧ (s.acceptEntry e).zt = s.zt ∧ (s.acceptEntry e).ir = s.ir ∧ (s.acceptEntry e).pd = s.pd ∧
      (s.acceptEntry e).mm = s.mm ∧ (s.acceptEntry e).om = s.om ∧ (s.acceptEntry e).sm = s.sm ∧ (s.acceptEntry e).tb = s.tb ∧
      (s.acceptEntry e).cl = s.cl ∧ (s.acceptEntry e).cr = s.cr ∧ (s.acceptEntry e).rc = s.rc ∧ (s.acceptEntry e).pins = s.pins ∧
      (s.acceptEntry e).freeDraws = s.freeDraws ∧ (s.acceptEntry e).pending = s.pending := by
  simp [State.acceptEntry]

@[simp] theorem State.onStoreEntry_frame (s : State) (sender : Station) (payload : List Byte) (k : RequestKind) (e : Option StoreEntry) :
    (s.onStoreEntry sender payload k e).rt = s.rt ∧ (s.onStoreEntry sender payload k e).pt = s.pt ∧
      (s.onStoreEntry sender payload k e).st = s.st ∧ (s.onStoreEntry sender payload k e).sp = s.sp ∧
      (s.onStoreEntry sender payload k e).sr = s.sr ∧ (s.onStoreEntry sender payload k e).zt = s.zt ∧
      (s.onStoreEntry sender payload k e).ir = s.ir ∧ (s.onStoreEntry sender payload k e).pd = s.pd ∧
      (s.onStoreEntry sender payload k e).mm = s.mm ∧ (s.onStoreEntry sender payload k e).om = s.om ∧
      (s.onStoreEntry sender payload k e).sm = s.sm ∧ (s.onStoreEntry sender payload k e).tb = s.tb ∧
      (s.onStoreEntry sender payload k e).cl = s.cl ∧ (s.onStoreEntry sender payload k e).cr = s.cr ∧
      (s.onStoreEntry sender payload k e).rc = s.rc ∧ (s.onStoreEntry sender payload k e).pins = s.pins ∧
      (s.onStoreEntry sender payload k e).pending = s.pending := by
  simp only [State.onStoreEntry]
  (repeat' split) <;> simp

@[simp] theorem State.onPresetRead_frame (s : State) (sender : Station) (payload : List Byte) :
    (s.onPresetRead sender payload).rt = s.rt ∧ (s.onPresetRead sender payload).pt = s.pt ∧ (s.onPresetRead sender payload).st = s.st ∧
      (s.onPresetRead sender payload).sp = s.sp ∧ (s.onPresetRead sender payload).sr = s.sr ∧ (s.onPresetRead sender payload).zt = s.zt ∧
      (s.onPresetRead sender payload).ir = s.ir ∧ (s.onPresetRead sender payload).pd = s.pd ∧ (s.onPresetRead sender payload).mm = s.mm ∧
      (s.onPresetRead sender payload).om = s.om ∧ (s.onPresetRead sender payload).sm = s.sm ∧ (s.onPresetRead sender payload).tb = s.tb ∧
      (s.onPresetRead sender payload).cl = s.cl ∧ (s.onPresetRead sender payload).cr = s.cr ∧ (s.onPresetRead sender payload).rc = s.rc ∧
      (s.onPresetRead sender payload).pins = s.pins ∧ (s.onPresetRead sender payload).pending = s.pending := by
  simp only [State.onPresetRead]
  (repeat' split) <;> simp

@[simp] theorem State.onListRead_frame (s : State) (sender : Station) (payload : List Byte) :
    (s.onListRead sender payload).rt = s.rt ∧ (s.onListRead sender payload).pt = s.pt ∧ (s.onListRead sender payload).st = s.st ∧
      (s.onListRead sender payload).sp = s.sp ∧ (s.onListRead sender payload).sr = s.sr ∧ (s.onListRead sender payload).zt = s.zt ∧
      (s.onListRead sender payload).ir = s.ir ∧ (s.onListRead sender payload).pd = s.pd ∧ (s.onListRead sender payload).mm = s.mm ∧
      (s.onListRead sender payload).om = s.om ∧ (s.onListRead sender payload).sm = s.sm ∧ (s.onListRead sender payload).tb = s.tb ∧
      (s.onListRead sender payload).ps = s.ps ∧ (s.onListRead sender payload).cl = s.cl ∧ (s.onListRead sender payload).cr = s.cr ∧
      (s.onListRead sender payload).rc = s.rc ∧ (s.onListRead sender payload).pins = s.pins ∧
      (s.onListRead sender payload).pending = s.pending := by
  simp only [State.onListRead]
  (repeat' split) <;> simp

@[simp] theorem State.onStatusQuery_frame (s : State) (sender : Station) (payload : List Byte) :
    (s.onStatusQuery sender payload).rt = s.rt ∧ (s.onStatusQuery sender payload).pt = s.pt ∧
      (s.onStatusQuery sender payload).st = s.st ∧ (s.onStatusQuery sender payload).sp = s.sp ∧
      (s.onStatusQuery sender payload).sr = s.sr ∧ (s.onStatusQuery sender payload).zt = s.zt ∧
      (s.onStatusQuery sender payload).ir = s.ir ∧ (s.onStatusQuery sender payload).pd = s.pd ∧
      (s.onStatusQuery sender payload).mm = s.mm ∧ (s.onStatusQuery sender payload).om = s.om ∧
      (s.onStatusQuery sender payload).sm = s.sm ∧ (s.onStatusQuery sender payload).tb = s.tb ∧
      (s.onStatusQuery sender payload).ps = s.ps ∧ (s.onStatusQuery sender payload).cl = s.cl ∧
      (s.onStatusQuery sender payload).rc = s.rc ∧ (s.onStatusQuery sender payload).pins = s.pins ∧
      (s.onStatusQuery sender payload).pending = s.pending := by
  simp only [State.onStatusQuery]
  (repeat' split) <;> simp

end Sys2Proof.Machine
end

