-- ==== Sys2Proof/Laws/FramesModes.lean ====
section
/-! SUPPORT. Laws of the state: what the operations of the modes, the zone table, the rounds and the requests leave unchanged. -/

namespace Sys2Proof.Machine

@[simp] theorem State.wake_frame (s : State) :
    (s.wake).st = s.st ∧ (s.wake).sr = s.sr ∧ (s.wake).zt = s.zt ∧ (s.wake).pd = s.pd ∧ (s.wake).mm = s.mm ∧ (s.wake).om = s.om ∧
      (s.wake).sm = s.sm ∧ (s.wake).ps = s.ps ∧ (s.wake).cl = s.cl ∧ (s.wake).rc = s.rc ∧ (s.wake).pins = s.pins ∧
      (s.wake).freeDraws = s.freeDraws ∧ (s.wake).pending = s.pending := by
  simp [State.wake]

@[simp] theorem State.enterMode_frame (s : State) (old : Mode) :
    (s.enterMode old).st = s.st ∧ (s.enterMode old).zt = s.zt ∧ (s.enterMode old).sm = s.sm ∧ (s.enterMode old).cl = s.cl ∧
      (s.enterMode old).rc = s.rc ∧ (s.enterMode old).pins = s.pins ∧ (s.enterMode old).freeDraws = s.freeDraws ∧
      (s.enterMode old).pending = s.pending := by
  simp only [State.enterMode, State.eachOutput]
  (repeat' split) <;> simp

@[simp] theorem State.changeMode_frame (s : State) (m : Mode) :
    (s.changeMode m).st = s.st ∧ (s.changeMode m).zt = s.zt ∧ (s.changeMode m).sm = s.sm ∧ (s.changeMode m).cl = s.cl ∧
      (s.changeMode m).rc = s.rc ∧ (s.changeMode m).pins = s.pins ∧ (s.changeMode m).freeDraws = s.freeDraws ∧
      (s.changeMode m).pending = s.pending := by
  simp only [State.changeMode]
  (repeat' split) <;> simp

@[simp] theorem State.rederiveMode_frame (s : State) :
    (s.rederiveMode).st = s.st ∧ (s.rederiveMode).zt = s.zt ∧ (s.rederiveMode).sm = s.sm ∧ (s.rederiveMode).cl = s.cl ∧
      (s.rederiveMode).rc = s.rc ∧ (s.rederiveMode).pins = s.pins ∧ (s.rederiveMode).freeDraws = s.freeDraws ∧
      (s.rederiveMode).pending = s.pending := by
  simp only [State.rederiveMode]
  (repeat' split) <;> simp

@[simp] theorem State.afterTableLoss_frame (s : State) (freed : List Stream) :
    (s.afterTableLoss freed).st = s.st ∧ (s.afterTableLoss freed).zt = s.zt ∧ (s.afterTableLoss freed).sm = s.sm ∧
      (s.afterTableLoss freed).cl = s.cl ∧ (s.afterTableLoss freed).rc = s.rc ∧ (s.afterTableLoss freed).pins = s.pins ∧
      (s.afterTableLoss freed).freeDraws = s.freeDraws ∧ (s.afterTableLoss freed).pending = s.pending := by
  simp only [State.afterTableLoss]
  (repeat' split) <;> simp

@[simp] theorem State.handRecords_frame (s : State) (old : ZoneRecord) :
    (s.handRecords old).st = s.st ∧ (s.handRecords old).zt = s.zt ∧ (s.handRecords old).sm = s.sm ∧ (s.handRecords old).cl = s.cl ∧
      (s.handRecords old).rc = s.rc ∧ (s.handRecords old).pins = s.pins ∧ (s.handRecords old).freeDraws = s.freeDraws ∧
      (s.handRecords old).pending = s.pending := by
  simp only [State.handRecords]
  (repeat' split) <;> simp

@[simp] theorem State.applyZoneSet_frame (s : State) (f : ZoneSetFields) :
    (s.applyZoneSet f).st = s.st ∧ (s.applyZoneSet f).sm = s.sm ∧ (s.applyZoneSet f).cl = s.cl ∧ (s.applyZoneSet f).rc = s.rc ∧
      (s.applyZoneSet f).pins = s.pins ∧ (s.applyZoneSet f).freeDraws = s.freeDraws ∧ (s.applyZoneSet f).pending = s.pending := by
  simp [State.applyZoneSet]

@[simp] theorem State.applyZoneState_frame (s : State) (c : Vector ZoneRecord 4) :
    (s.applyZoneState c).st = s.st ∧ (s.applyZoneState c).sm = s.sm ∧ (s.applyZoneState c).cl = s.cl ∧ (s.applyZoneState c).rc = s.rc ∧
      (s.applyZoneState c).pins = s.pins ∧ (s.applyZoneState c).freeDraws = s.freeDraws ∧ (s.applyZoneState c).pending = s.pending := by
  simp [State.applyZoneState]

@[simp] theorem State.setRoleStatuses_frame (s : State) :
    (s.setRoleStatuses).rt = s.rt ∧ (s.setRoleStatuses).lc = s.lc ∧ (s.setRoleStatuses).pt = s.pt ∧ (s.setRoleStatuses).st = s.st ∧
      (s.setRoleStatuses).sp = s.sp ∧ (s.setRoleStatuses).sr = s.sr ∧ (s.setRoleStatuses).zt = s.zt ∧ (s.setRoleStatuses).ir = s.ir ∧
      (s.setRoleStatuses).pd = s.pd ∧ (s.setRoleStatuses).mm = s.mm ∧ (s.setRoleStatuses).sm = s.sm ∧ (s.setRoleStatuses).tb = s.tb ∧
      (s.setRoleStatuses).ps = s.ps ∧ (s.setRoleStatuses).cl = s.cl ∧ (s.setRoleStatuses).rc = s.rc ∧ (s.setRoleStatuses).pins = s.pins ∧
      (s.setRoleStatuses).freeDraws = s.freeDraws ∧ (s.setRoleStatuses).pending = s.pending := by
  simp [State.setRoleStatuses, State.eachOutput]

@[simp] theorem State.deriveRoles_frame (s : State) :
    (s.deriveRoles).rt = s.rt ∧ (s.deriveRoles).lc = s.lc ∧ (s.deriveRoles).pt = s.pt ∧ (s.deriveRoles).st = s.st ∧
      (s.deriveRoles).sp = s.sp ∧ (s.deriveRoles).sr = s.sr ∧ (s.deriveRoles).ir = s.ir ∧ (s.deriveRoles).pd = s.pd ∧
      (s.deriveRoles).sm = s.sm ∧ (s.deriveRoles).tb = s.tb ∧ (s.deriveRoles).ps = s.ps ∧ (s.deriveRoles).cl = s.cl ∧
      (s.deriveRoles).rc = s.rc ∧ (s.deriveRoles).pins = s.pins ∧ (s.deriveRoles).freeDraws = s.freeDraws ∧
      (s.deriveRoles).pending = s.pending := by
  simp [State.deriveRoles]

@[simp] theorem State.handDiscipline_frame (s : State) (old : Discipline) :
    (s.handDiscipline old).rt = s.rt ∧ (s.handDiscipline old).lc = s.lc ∧ (s.handDiscipline old).pt = s.pt ∧
      (s.handDiscipline old).st = s.st ∧ (s.handDiscipline old).sp = s.sp ∧ (s.handDiscipline old).sr = s.sr ∧
      (s.handDiscipline old).zt = s.zt ∧ (s.handDiscipline old).ir = s.ir ∧ (s.handDiscipline old).pd = s.pd ∧
      (s.handDiscipline old).mm = s.mm ∧ (s.handDiscipline old).sm = s.sm ∧ (s.handDiscipline old).tb = s.tb ∧
      (s.handDiscipline old).ps = s.ps ∧ (s.handDiscipline old).cl = s.cl ∧ (s.handDiscipline old).rc = s.rc ∧
      (s.handDiscipline old).pins = s.pins ∧ (s.handDiscipline old).freeDraws = s.freeDraws ∧ (s.handDiscipline old).pending = s.pending := by
  simp only [State.handDiscipline]
  (repeat' split) <;> simp

@[simp] theorem State.rampRound_frame (s : State) :
    (s.rampRound).rt = s.rt ∧ (s.rampRound).lc = s.lc ∧ (s.rampRound).pt = s.pt ∧ (s.rampRound).st = s.st ∧ (s.rampRound).sp = s.sp ∧
      (s.rampRound).zt = s.zt ∧ (s.rampRound).ir = s.ir ∧ (s.rampRound).sm = s.sm ∧ (s.rampRound).tb = s.tb ∧ (s.rampRound).ps = s.ps ∧
      (s.rampRound).cl = s.cl ∧ (s.rampRound).rc = s.rc ∧ (s.rampRound).pins = s.pins ∧ (s.rampRound).freeDraws = s.freeDraws ∧
      (s.rampRound).pending = s.pending := by
  simp [State.rampRound]

@[simp] theorem State.clockRound_frame (s : State) (r : RoundBegin) :
    (s.clockRound r).pt = s.pt ∧ (s.clockRound r).st = s.st ∧ (s.clockRound r).sp = s.sp ∧ (s.clockRound r).sr = s.sr ∧
      (s.clockRound r).zt = s.zt ∧ (s.clockRound r).ir = s.ir ∧ (s.clockRound r).pd = s.pd ∧ (s.clockRound r).mm = s.mm ∧
      (s.clockRound r).sm = s.sm ∧ (s.clockRound r).tb = s.tb ∧ (s.clockRound r).ps = s.ps ∧ (s.clockRound r).cl = s.cl ∧
      (s.clockRound r).rc = s.rc ∧ (s.clockRound r).pins = s.pins ∧ (s.clockRound r).freeDraws = s.freeDraws ∧
      (s.clockRound r).pending = s.pending := by
  simp [State.clockRound]

@[simp] theorem State.peerRound_frame (s : State) :
    (s.peerRound).rt = s.rt ∧ (s.peerRound).lc = s.lc ∧ (s.peerRound).st = s.st ∧ (s.peerRound).sp = s.sp ∧ (s.peerRound).sr = s.sr ∧
      (s.peerRound).ir = s.ir ∧ (s.peerRound).pd = s.pd ∧ (s.peerRound).sm = s.sm ∧ (s.peerRound).tb = s.tb ∧ (s.peerRound).ps = s.ps ∧
      (s.peerRound).cl = s.cl ∧ (s.peerRound).rc = s.rc ∧ (s.peerRound).pins = s.pins ∧ (s.peerRound).freeDraws = s.freeDraws ∧
      (s.peerRound).pending = s.pending := by
  simp only [State.peerRound]
  (repeat' split) <;> simp

@[simp] theorem State.receiverRound_frame (s : State) (d : Nat) :
    (s.receiverRound d).rt = s.rt ∧ (s.receiverRound d).lc = s.lc ∧ (s.receiverRound d).pt = s.pt ∧ (s.receiverRound d).st = s.st ∧
      (s.receiverRound d).sp = s.sp ∧ (s.receiverRound d).zt = s.zt ∧ (s.receiverRound d).ir = s.ir ∧ (s.receiverRound d).sm = s.sm ∧
      (s.receiverRound d).tb = s.tb ∧ (s.receiverRound d).ps = s.ps ∧ (s.receiverRound d).cl = s.cl ∧ (s.receiverRound d).rc = s.rc ∧
      (s.receiverRound d).pins = s.pins ∧ (s.receiverRound d).freeDraws = s.freeDraws ∧ (s.receiverRound d).pending = s.pending := by
  simp only [State.receiverRound]
  (repeat' split) <;> simp

@[simp] theorem State.sourceRound_frame (s : State) (r : RoundBegin) (lr : LocalRound) :
    (s.sourceRound r lr).rt = s.rt ∧ (s.sourceRound r lr).st = s.st ∧ (s.sourceRound r lr).sr = s.sr ∧ (s.sourceRound r lr).zt = s.zt ∧
      (s.sourceRound r lr).pd = s.pd ∧ (s.sourceRound r lr).mm = s.mm ∧ (s.sourceRound r lr).om = s.om ∧ (s.sourceRound r lr).sm = s.sm ∧
      (s.sourceRound r lr).ps = s.ps ∧ (s.sourceRound r lr).cl = s.cl ∧ (s.sourceRound r lr).rc = s.rc ∧
      (s.sourceRound r lr).pins = s.pins ∧ (s.sourceRound r lr).pending = s.pending := by
  simp [State.sourceRound, State.eachSource]

@[simp] theorem State.sourceClose_frame (s : State) :
    (s.sourceClose).rt = s.rt ∧ (s.sourceClose).lc = s.lc ∧ (s.sourceClose).pt = s.pt ∧ (s.sourceClose).st = s.st ∧
      (s.sourceClose).sr = s.sr ∧ (s.sourceClose).zt = s.zt ∧ (s.sourceClose).pd = s.pd ∧ (s.sourceClose).mm = s.mm ∧
      (s.sourceClose).om = s.om ∧ (s.sourceClose).sm = s.sm ∧ (s.sourceClose).ps = s.ps ∧ (s.sourceClose).cl = s.cl ∧
      (s.sourceClose).cr = s.cr ∧ (s.sourceClose).rc = s.rc ∧ (s.sourceClose).pins = s.pins ∧ (s.sourceClose).freeDraws = s.freeDraws ∧
      (s.sourceClose).pending = s.pending := by
  simp [State.sourceClose]

@[simp] theorem State.outputRound_frame (s : State) :
    (s.outputRound).rt = s.rt ∧ (s.outputRound).lc = s.lc ∧ (s.outputRound).st = s.st ∧ (s.outputRound).sp = s.sp ∧
      (s.outputRound).sr = s.sr ∧ (s.outputRound).zt = s.zt ∧ (s.outputRound).ir = s.ir ∧ (s.outputRound).pd = s.pd ∧
      (s.outputRound).mm = s.mm ∧ (s.outputRound).sm = s.sm ∧ (s.outputRound).tb = s.tb ∧ (s.outputRound).ps = s.ps ∧
      (s.outputRound).cl = s.cl ∧ (s.outputRound).rc = s.rc ∧ (s.outputRound).pins = s.pins ∧ (s.outputRound).freeDraws = s.freeDraws ∧
      (s.outputRound).pending = s.pending := by
  simp [State.outputRound, State.eachOutput]

@[simp] theorem State.endWindow_frame (s : State) :
    (s.endWindow).st = s.st ∧ (s.endWindow).sm = s.sm ∧ (s.endWindow).cl = s.cl ∧ (s.endWindow).rc = s.rc ∧ (s.endWindow).pins = s.pins ∧
      (s.endWindow).freeDraws = s.freeDraws ∧ (s.endWindow).pending = s.pending := by
  simp [State.endWindow, State.eachSource]

@[simp] theorem State.joinRound_frame (s : State) :
    (s.joinRound).st = s.st ∧ (s.joinRound).sm = s.sm ∧ (s.joinRound).cl = s.cl ∧ (s.joinRound).rc = s.rc ∧ (s.joinRound).pins = s.pins ∧
      (s.joinRound).freeDraws = s.freeDraws ∧ (s.joinRound).pending = s.pending := by
  simp only [State.joinRound]
  (repeat' split) <;> simp

@[simp] theorem State.presenceRound_frame (s : State) :
    (s.presenceRound).rt = s.rt ∧ (s.presenceRound).lc = s.lc ∧ (s.presenceRound).st = s.st ∧ (s.presenceRound).sp = s.sp ∧
      (s.presenceRound).sr = s.sr ∧ (s.presenceRound).zt = s.zt ∧ (s.presenceRound).ir = s.ir ∧ (s.presenceRound).pd = s.pd ∧
      (s.presenceRound).mm = s.mm ∧ (s.presenceRound).om = s.om ∧ (s.presenceRound).sm = s.sm ∧ (s.presenceRound).tb = s.tb ∧
      (s.presenceRound).ps = s.ps ∧ (s.presenceRound).cl = s.cl ∧ (s.presenceRound).cr = s.cr ∧ (s.presenceRound).rc = s.rc ∧
      (s.presenceRound).pins = s.pins ∧ (s.presenceRound).freeDraws = s.freeDraws ∧ (s.presenceRound).pending = s.pending := by
  simp only [State.presenceRound]
  (repeat' split) <;> simp

@[simp] theorem State.roundBegin_frame (s : State) (r : RoundBegin) :
    (s.roundBegin r).st = s.st ∧ (s.roundBegin r).sm = s.sm ∧ (s.roundBegin r).cl = s.cl ∧ (s.roundBegin r).rc = s.rc ∧
      (s.roundBegin r).pins = s.pins ∧ (s.roundBegin r).pending = s.pending := by
  simp only [State.roundBegin]
  (repeat' split) <;> simp

@[simp] theorem State.changeTable_frame (s : State) (c : TableChange) (o : Option Source) :
    (s.changeTable c o).zt = s.zt ∧ (s.changeTable c o).sm = s.sm ∧ (s.changeTable c o).cl = s.cl ∧ (s.changeTable c o).rc = s.rc ∧
      (s.changeTable c o).pins = s.pins ∧ (s.changeTable c o).freeDraws = s.freeDraws ∧ (s.changeTable c o).pending = s.pending := by
  simp [State.changeTable]

@[simp] theorem State.refreshEntry_frame (s : State) (sender : Station) (c : Option PresenceContent) :
    (s.refreshEntry sender c).rt = s.rt ∧ (s.refreshEntry sender c).lc = s.lc ∧ (s.refreshEntry sender c).st = s.st ∧
      (s.refreshEntry sender c).sp = s.sp ∧ (s.refreshEntry sender c).sr = s.sr ∧ (s.refreshEntry sender c).ir = s.ir ∧
      (s.refreshEntry sender c).pd = s.pd ∧ (s.refreshEntry sender c).sm = s.sm ∧ (s.refreshEntry sender c).tb = s.tb ∧
      (s.refreshEntry sender c).ps = s.ps ∧ (s.refreshEntry sender c).cl = s.cl ∧ (s.refreshEntry sender c).rc = s.rc ∧
      (s.refreshEntry sender c).pins = s.pins ∧ (s.refreshEntry sender c).freeDraws = s.freeDraws ∧
      (s.refreshEntry sender c).pending = s.pending := by
  simp only [State.refreshEntry]
  (repeat' split) <;> simp

@[simp] theorem State.mapRole_frame (s : State) (r : Requester) (n : OutputNo) (x : Option Role) :
    (s.mapRole r n x).rt = s.rt ∧ (s.mapRole r n x).st = s.st ∧ (s.mapRole r n x).sp = s.sp ∧ (s.mapRole r n x).sr = s.sr ∧
      (s.mapRole r n x).zt = s.zt ∧ (s.mapRole r n x).ir = s.ir ∧ (s.mapRole r n x).pd = s.pd ∧ (s.mapRole r n x).mm = s.mm ∧
      (s.mapRole r n x).sm = s.sm ∧ (s.mapRole r n x).tb = s.tb ∧ (s.mapRole r n x).ps = s.ps ∧ (s.mapRole r n x).rc = s.rc ∧
      (s.mapRole r n x).pins = s.pins ∧ (s.mapRole r n x).freeDraws = s.freeDraws ∧ (s.mapRole r n x).pending = s.pending := by
  simp [State.mapRole]

@[simp] theorem State.onRoleMap_frame (s : State) (sender : Station) (payload : List Byte) :
    (s.onRoleMap sender payload).rt = s.rt ∧ (s.onRoleMap sender payload).st = s.st ∧ (s.onRoleMap sender payload).sp = s.sp ∧
      (s.onRoleMap sender payload).sr = s.sr ∧ (s.onRoleMap sender payload).zt = s.zt ∧ (s.onRoleMap sender payload).ir = s.ir ∧
      (s.onRoleMap sender payload).pd = s.pd ∧ (s.onRoleMap sender payload).mm = s.mm ∧ (s.onRoleMap sender payload).sm = s.sm ∧
      (s.onRoleMap sender payload).tb = s.tb ∧ (s.onRoleMap sender payload).ps = s.ps ∧ (s.onRoleMap sender payload).rc = s.rc ∧
      (s.onRoleMap sender payload).pins = s.pins ∧ (s.onRoleMap sender payload).pending = s.pending := by
  simp only [State.onRoleMap]
  (repeat' split) <;> simp

@[simp] theorem State.onTune_frame (s : State) (sender : Station) (payload : List Byte) :
    (s.onTune sender payload).rt = s.rt ∧ (s.onTune sender payload).pt = s.pt ∧ (s.onTune sender payload).st = s.st ∧
      (s.onTune sender payload).sp = s.sp ∧ (s.onTune sender payload).sr = s.sr ∧ (s.onTune sender payload).zt = s.zt ∧
      (s.onTune sender payload).ir = s.ir ∧ (s.onTune sender payload).pd = s.pd ∧ (s.onTune sender payload).mm = s.mm ∧
      (s.onTune sender payload).om = s.om ∧ (s.onTune sender payload).sm = s.sm ∧ (s.onTune sender payload).cl = s.cl ∧
      (s.onTune sender payload).cr = s.cr ∧ (s.onTune sender payload).rc = s.rc ∧ (s.onTune sender payload).pins = s.pins ∧
      (s.onTune sender payload).pending = s.pending := by
  simp only [State.onTune, State.tunerRequest]
  (repeat' split) <;> simp

@[simp] theorem State.onSeek_frame (s : State) (sender : Station) (payload : List Byte) :
    (s.onSeek sender payload).rt = s.rt ∧ (s.onSeek sender payload).pt = s.pt ∧ (s.onSeek sender payload).st = s.st ∧
      (s.onSeek sender payload).sp = s.sp ∧ (s.onSeek sender payload).sr = s.sr ∧ (s.onSeek sender payload).zt = s.zt ∧
      (s.onSeek sender payload).ir = s.ir ∧ (s.onSeek sender payload).pd = s.pd ∧ (s.onSeek sender payload).mm = s.mm ∧
      (s.onSeek sender payload).om = s.om ∧ (s.onSeek sender payload).sm = s.sm ∧ (s.onSeek sender payload).cl = s.cl ∧
      (s.onSeek sender payload).cr = s.cr ∧ (s.onSeek sender payload).rc = s.rc ∧ (s.onSeek sender payload).pins = s.pins ∧
      (s.onSeek sender payload).pending = s.pending := by
  simp only [State.onSeek, State.tunerRequest]
  (repeat' split) <;> simp

@[simp] theorem State.onScan_frame (s : State) (sender : Station) (payload : List Byte) :
    (s.onScan sender payload).rt = s.rt ∧ (s.onScan sender payload).pt = s.pt ∧ (s.onScan sender payload).st = s.st ∧
      (s.onScan sender payload).sp = s.sp ∧ (s.onScan sender payload).sr = s.sr ∧ (s.onScan sender payload).zt = s.zt ∧
      (s.onScan sender payload).ir = s.ir ∧ (s.onScan sender payload).pd = s.pd ∧ (s.onScan sender payload).mm = s.mm ∧
      (s.onScan sender payload).om = s.om ∧ (s.onScan sender payload).sm = s.sm ∧ (s.onScan sender payload).cl = s.cl ∧
      (s.onScan sender payload).cr = s.cr ∧ (s.onScan sender payload).rc = s.rc ∧ (s.onScan sender payload).pins = s.pins ∧
      (s.onScan sender payload).pending = s.pending := by
  simp only [State.onScan, State.tunerRequest]
  (repeat' split) <;> simp

@[simp] theorem State.onPresetRecall_frame (s : State) (sender : Station) (payload : List Byte) :
    (s.onPresetRecall sender payload).rt = s.rt ∧ (s.onPresetRecall sender payload).pt = s.pt ∧
      (s.onPresetRecall sender payload).st = s.st ∧ (s.onPresetRecall sender payload).sp = s.sp ∧
      (s.onPresetRecall sender payload).sr = s.sr ∧ (s.onPresetRecall sender payload).zt = s.zt ∧
      (s.onPresetRecall sender payload).ir = s.ir ∧ (s.onPresetRecall sender payload).pd = s.pd ∧
      (s.onPresetRecall sender payload).mm = s.mm ∧ (s.onPresetRecall sender payload).om = s.om ∧
      (s.onPresetRecall sender payload).sm = s.sm ∧ (s.onPresetRecall sender payload).cl = s.cl ∧
      (s.onPresetRecall sender payload).cr = s.cr ∧ (s.onPresetRecall sender payload).rc = s.rc ∧
      (s.onPresetRecall sender payload).pins = s.pins ∧ (s.onPresetRecall sender payload).pending = s.pending := by
  simp only [State.onPresetRecall, State.tunerRequest]
  (repeat' split) <;> simp

@[simp] theorem State.judge_frame (s : State) (slot : SlotNo) (h : Option SlotHeader) :
    (s.judge slot h).zt = s.zt ∧ (s.judge slot h).sm = s.sm ∧ (s.judge slot h).cl = s.cl ∧ (s.judge slot h).rc = s.rc ∧
      (s.judge slot h).pins = s.pins ∧ (s.judge slot h).freeDraws = s.freeDraws ∧ (s.judge slot h).pending = s.pending := by
  simp [State.judge]

@[simp] theorem State.slotEnds_frame (s : State) (slot : SlotNo) (heard : List Byte) :
    (s.slotEnds slot heard).zt = s.zt ∧ (s.slotEnds slot heard).sm = s.sm ∧ (s.slotEnds slot heard).cl = s.cl ∧
      (s.slotEnds slot heard).rc = s.rc ∧ (s.slotEnds slot heard).pins = s.pins ∧ (s.slotEnds slot heard).pending = s.pending := by
  simp only [State.slotEnds]
  (repeat' split) <;> simp

@[simp] theorem State.driveMute_frame (s : State) (on : Bool) :
    (s.driveMute on).rt = s.rt ∧ (s.driveMute on).st = s.st ∧ (s.driveMute on).sp = s.sp ∧ (s.driveMute on).sr = s.sr ∧
      (s.driveMute on).zt = s.zt ∧ (s.driveMute on).ir = s.ir ∧ (s.driveMute on).pd = s.pd ∧ (s.driveMute on).mm = s.mm ∧
      (s.driveMute on).sm = s.sm ∧ (s.driveMute on).tb = s.tb ∧ (s.driveMute on).ps = s.ps ∧ (s.driveMute on).cl = s.cl ∧
      (s.driveMute on).rc = s.rc ∧ (s.driveMute on).freeDraws = s.freeDraws ∧ (s.driveMute on).pending = s.pending := by
  simp only [State.driveMute]
  (repeat' split) <;> simp

@[simp] theorem State.configure_frame (s : State) (v : Option ConfigValues) :
    (s.configure v).lc = s.lc ∧ (s.configure v).st = s.st ∧ (s.configure v).sp = s.sp ∧ (s.configure v).sr = s.sr ∧
      (s.configure v).zt = s.zt ∧ (s.configure v).ir = s.ir ∧ (s.configure v).pd = s.pd ∧ (s.configure v).mm = s.mm ∧
      (s.configure v).om = s.om ∧ (s.configure v).sm = s.sm ∧ (s.configure v).ps = s.ps ∧ (s.configure v).rc = s.rc ∧
      (s.configure v).pins = s.pins ∧ (s.configure v).freeDraws = s.freeDraws ∧ (s.configure v).pending = s.pending := by
  simp [State.configure]

@[simp] theorem State.startJoin_frame (s : State) :
    (s.startJoin).st = s.st ∧ (s.startJoin).sr = s.sr ∧ (s.startJoin).zt = s.zt ∧ (s.startJoin).pd = s.pd ∧ (s.startJoin).mm = s.mm ∧
      (s.startJoin).om = s.om ∧ (s.startJoin).sm = s.sm ∧ (s.startJoin).tb = s.tb ∧ (s.startJoin).ps = s.ps ∧ (s.startJoin).rc = s.rc ∧
      (s.startJoin).pins = s.pins ∧ (s.startJoin).freeDraws = s.freeDraws ∧ (s.startJoin).pending = s.pending := by
  simp [State.startJoin]

end Sys2Proof.Machine
end

