-- ==== Sys2Proof/Laws/Clock.lean ====
section
/-! SUPPORT. Laws of the round timer: what a round begin leaves in it, and that nothing after the mark touches the clock. -/

namespace Sys2Proof.Machine

/-- The own takeover mark is a re-base, whoever the current sender is and whatever the interval (R16). -/
theorem RoundTimer.rebases_takeover {rt : RoundTimer} {own : Station} {mark : Option MarkFields} (h : rt.hearsTakeover own mark = true)
    (interval : Nat) : rt.rebases own mark interval = true := by
  cases mark <;> simp [RoundTimer.rebases, h]

theorem RoundTimer.evaluated_takeover {rt : RoundTimer} {own : Station} {mark : Option MarkFields} (h : rt.hearsTakeover own mark = true)
    (interval : Nat) : rt.evaluated own mark interval = none := by
  simp [RoundTimer.evaluated, RoundTimer.rebases_takeover h]

/-- Two round timers that differ at most in the takeover timer and in being the sender, which a change of mode touches (R8, R45, R47). -/
def RoundTimer.SameClock (a b : RoundTimer) : Prop := b = { a with takeover := b.takeover, isSender := b.isSender }

theorem RoundTimer.SameClock.refl (a : RoundTimer) : a.SameClock a := rfl

theorem RoundTimer.SameClock.trans {a b c : RoundTimer} (h : a.SameClock b) (k : b.SameClock c) : a.SameClock c := by
  unfold RoundTimer.SameClock at *
  rw [k, h]

theorem State.wake_clock (s : State) : s.rt.SameClock s.wake.rt := by
  simp [State.wake, State.startTakeover, RoundTimer.SameClock]

theorem State.enterMode_clock (s : State) (old : Mode) : s.rt.SameClock (s.enterMode old).rt := by
  have hw := s.wake_clock
  simp only [State.enterMode, State.eachOutput]
  split <;> (try split) <;> simp [RoundTimer.SameClock, RoundTimer.sleep] <;> exact hw

theorem State.changeMode_clock (s : State) (m : Mode) : s.rt.SameClock (s.changeMode m).rt := by
  simp only [State.changeMode]
  split
  · exact .refl _
  · exact State.enterMode_clock _ _

theorem State.rederiveMode_clock (s : State) : s.rt.SameClock s.rederiveMode.rt := by
  simp only [State.rederiveMode]
  split
  · exact State.changeMode_clock _ _
  · exact .refl _

theorem State.endWindow_clock (s : State) : s.rt.SameClock s.endWindow.rt := by
  have h := s.closeWindow.changeMode_clock s.closeWindow.derivedMode
  simpa only [State.endWindow, State.eachSource, State.settle_frame, State.closeWindow_frame] using h

theorem State.joinRound_clock (s : State) : s.rt.SameClock s.joinRound.rt := by
  simp only [State.joinRound]
  split <;> (try split) <;> first | exact State.endWindow_clock _ | exact .refl _

/-- The round timer that a round begin leaves is the one that heard the mark, but for a takeover timer or sender role that the end of the join
window changes. -/
theorem State.roundBegin_clock (s : State) (r : RoundBegin) :
    (s.rt.hear s.own s.mayMark (readMark r.sender r.body) r.elapsed).SameClock (s.roundBegin r).rt := by
  simp only [State.roundBegin, State.presenceRound_frame, State.sourceClose_frame]
  refine .trans ?_ (State.joinRound_clock _)
  simp only [State.outputRound_frame]
  split <;> split <;>
    simp only [State.rampRound_frame, State.switchIfDown_frame, State.evalGo_frame, State.sourceRound_frame, State.receiverRound_frame,
      State.peerRound_frame, State.clockRound, State.handDiscipline_frame, State.swapRound_frame, State.own, State.mayMark] <;>
    exact .refl _

end Sys2Proof.Machine
end

