-- ==== Sys2Proof/Laws/Conditions.lean ====
section
/-! SUPPORT. Laws of the condition set: what a put leaves held, for the entry it names and for every other, and which operations touch which entries. -/

namespace Sys2Proof.Machine

theorem Conditions.put_holds (c : Conditions) (k : Condition) (b : Bool) : (c.put k b).holds k = b := by
  have hb : k.bit < 24 := by cases k <;> simp [Condition.bit] <;> first | omega | (rename_i x; cases x <;> simp [Source.code, InputId.code])
  simp only [Conditions.put]
  split
  · simp_all
  · cases b <;> simp [Conditions.holds, hb]

theorem Condition.bit_lt (k : Condition) : k.bit < 24 := by cases k <;> simp [Condition.bit] <;> first | omega |
    (rename_i x; cases x <;> simp [Source.code, InputId.code])

def Condition.all : List Condition :=
  [.configInvalid, .clockUnlocked, .supplyLow, .muteLine, .outputFaulted 0, .outputFaulted 1, .outputFaulted 2, .outputFaulted 3,
    .outputRetired 0, .outputRetired 1, .outputRetired 2, .outputRetired 3, .roleDuplicate 0, .roleDuplicate 1, .roleDuplicate 2,
    .roleDuplicate 3, .streamNoSlot .a, .streamNoSlot .b, .streamNoSlot .t, .programLost, .decodeConceal, .inputUnsupported .a,
    .inputUnsupported .b]

theorem Condition.all_bit (k : Condition) : Condition.all[k.bit]? = some k := by
  cases k
  case outputFaulted n => fin_cases n <;> rfl
  case outputRetired n => fin_cases n <;> rfl
  case roleDuplicate n => fin_cases n <;> rfl
  case streamNoSlot n => cases n <;> rfl
  case inputUnsupported n => cases n <;> rfl
  all_goals rfl

theorem Condition.bit_inj {j k : Condition} (h : j.bit = k.bit) : j = k := by
  have h1 := Condition.all_bit j
  rw [h, Condition.all_bit k] at h1
  exact (Option.some.inj h1).symm

theorem Conditions.put_holds_ne (c : Conditions) (k j : Condition) (b : Bool) (h : j ≠ k) : (c.put k b).holds j = c.holds j := by
  have hb := Condition.bit_lt j
  have h' : j.bit ≠ k.bit := fun e => h (Condition.bit_inj e)
  simp only [Conditions.put]
  split
  · rfl
  · cases b <;> simp [Conditions.holds, hb] <;> simp_all

theorem State.closeEvent_holds (s : State) (k) : s.closeEvent.cr.holds k = s.cr.holds k := rfl

theorem State.checkDecoder_holds (s : State) (k : Condition) (h : k ≠ .decodeConceal) : s.checkDecoder.cr.holds k = s.cr.holds k := by
  simp only [State.checkDecoder, State.rebuildIf_frame]
  split
  · exact Conditions.put_holds_ne _ _ _ _ (by assumption)
  · rfl

theorem State.switchIfDown_holds (s : State) (k : Condition) (h : k ≠ .decodeConceal) (h2 : k ≠ .programLost) : s.switchIfDown.cr.holds k =
    s.cr.holds k := by
  simp only [State.switchIfDown]
  split
  · split
    · rfl
    · simp only [State.switchTo, State.rebuild_frame, State.checkDecoder_holds _ _ h, State.setCondition]
      exact Conditions.put_holds_ne _ _ _ _ (by assumption)
  · rfl

theorem State.settle_holds (s : State) (src b) (k : Condition) (h : ∀ x, k ≠ .streamNoSlot x) : (s.settle src b).cr.holds k = s.cr.holds k := by
  simp only [State.settle]; split
  · exact Conditions.put_holds_ne _ _ _ _ (h _)
  · rfl

theorem State.followKind_holds (s : State) (src b) (k : Condition) (h : ∀ x, k ≠ .streamNoSlot x) : (s.followKind src b).cr.holds k =
    s.cr.holds k := by
  simp only [State.followKind]; (repeat' split) <;> simp [State.settle_holds _ _ _ k h]

theorem State.putInput_holds (s : State) (id r) (k : Condition) (h : ∀ x, k ≠ .streamNoSlot x) (h2 : ∀ x, k ≠ .inputUnsupported x) :
    (s.putInput id r).cr.holds k = s.cr.holds k := by
  simp only [State.putInput, State.followKind_holds _ _ _ k h, State.announceIf_frame]
  exact Conditions.put_holds_ne _ _ _ _ (h2 _)

end Sys2Proof.Machine
end

