-- ==== Sys2Proof/Laws/Peers.lean ====
section
/-! SUPPORT. Laws of the peer table, the mode and the zone table: which operations leave their fields as they stand. -/

namespace Sys2Proof.Machine

@[simp] theorem State.announce_peers (s : State) :
    (s.announce).pt.entries = s.pt.entries ∧ (s.announce).pt.mode = s.pt.mode ∧ (s.announce).pt.joinCount = s.pt.joinCount ∧
      (s.announce).pt.joinFlag = s.pt.joinFlag ∧ (s.announce).pt.firstOffered = s.pt.firstOffered :=
  ⟨rfl, rfl, rfl, rfl, rfl⟩

@[simp] theorem State.announceIf_peers (s : State) (b : Bool) :
    (s.announceIf b).pt.entries = s.pt.entries ∧ (s.announceIf b).pt.mode = s.pt.mode ∧ (s.announceIf b).pt.joinCount = s.pt.joinCount ∧
      (s.announceIf b).pt.joinFlag = s.pt.joinFlag ∧ (s.announceIf b).pt.firstOffered = s.pt.firstOffered :=
  ⟨rfl, rfl, rfl, rfl, rfl⟩

@[simp] theorem State.closeEvent_peers (s : State) :
    (s.closeEvent).pt.entries = s.pt.entries ∧ (s.closeEvent).pt.mode = s.pt.mode ∧ (s.closeEvent).pt.joinCount = s.pt.joinCount ∧
      (s.closeEvent).pt.joinFlag = s.pt.joinFlag ∧ (s.closeEvent).pt.firstOffered = s.pt.firstOffered :=
  ⟨rfl, rfl, rfl, rfl, rfl⟩

@[simp] theorem State.closePosition_peers (s : State) :
    (s.closePosition).pt.entries = s.pt.entries ∧ (s.closePosition).pt.mode = s.pt.mode ∧
      (s.closePosition).pt.joinCount = s.pt.joinCount ∧ (s.closePosition).pt.joinFlag = s.pt.joinFlag ∧
      (s.closePosition).pt.firstOffered = s.pt.firstOffered :=
  ⟨rfl, rfl, rfl, rfl, rfl⟩

@[simp] theorem State.countFault_peers (s : State) (n : OutputNo) :
    (s.countFault n).pt.entries = s.pt.entries ∧ (s.countFault n).pt.mode = s.pt.mode ∧ (s.countFault n).pt.joinCount = s.pt.joinCount ∧
      (s.countFault n).pt.joinFlag = s.pt.joinFlag ∧ (s.countFault n).pt.firstOffered = s.pt.firstOffered := by
  simp [State.countFault]

@[simp] theorem State.countFaultIf_peers (s : State) (n : OutputNo) (b : Bool) :
    (s.countFaultIf n b).pt.entries = s.pt.entries ∧ (s.countFaultIf n b).pt.mode = s.pt.mode ∧
      (s.countFaultIf n b).pt.joinCount = s.pt.joinCount ∧ (s.countFaultIf n b).pt.joinFlag = s.pt.joinFlag ∧
      (s.countFaultIf n b).pt.firstOffered = s.pt.firstOffered := by
  simp only [State.countFaultIf]
  (repeat' split) <;> simp

@[simp] theorem State.endRecovery_peers (s : State) (n : OutputNo) :
    (s.endRecovery n).pt.entries = s.pt.entries ∧ (s.endRecovery n).pt.mode = s.pt.mode ∧
      (s.endRecovery n).pt.joinCount = s.pt.joinCount ∧ (s.endRecovery n).pt.joinFlag = s.pt.joinFlag ∧
      (s.endRecovery n).pt.firstOffered = s.pt.firstOffered := by
  simp only [State.endRecovery]
  (repeat' split) <;> simp

@[simp] theorem State.recoverAt_peers (s : State) (n : OutputNo) (b : Nat) :
    (s.recoverAt n b).pt.entries = s.pt.entries ∧ (s.recoverAt n b).pt.mode = s.pt.mode ∧
      (s.recoverAt n b).pt.joinCount = s.pt.joinCount ∧ (s.recoverAt n b).pt.joinFlag = s.pt.joinFlag ∧
      (s.recoverAt n b).pt.firstOffered = s.pt.firstOffered := by
  simp [State.recoverAt]

@[simp] theorem State.recoveryStep_peers (s : State) (n : OutputNo) :
    (s.recoveryStep n).pt.entries = s.pt.entries ∧ (s.recoveryStep n).pt.mode = s.pt.mode ∧
      (s.recoveryStep n).pt.joinCount = s.pt.joinCount ∧ (s.recoveryStep n).pt.joinFlag = s.pt.joinFlag ∧
      (s.recoveryStep n).pt.firstOffered = s.pt.firstOffered := by
  simp only [State.recoveryStep]
  (repeat' split) <;> simp

@[simp] theorem State.activateOutput_peers (s : State) (n : OutputNo) :
    (s.activateOutput n).pt.entries = s.pt.entries ∧ (s.activateOutput n).pt.mode = s.pt.mode ∧
      (s.activateOutput n).pt.joinCount = s.pt.joinCount ∧ (s.activateOutput n).pt.joinFlag = s.pt.joinFlag ∧
      (s.activateOutput n).pt.firstOffered = s.pt.firstOffered := by
  simp only [State.activateOutput]
  (repeat' split) <;> simp

@[simp] theorem State.standbyOutput_peers (s : State) (n : OutputNo) :
    (s.standbyOutput n).pt.entries = s.pt.entries ∧ (s.standbyOutput n).pt.mode = s.pt.mode ∧
      (s.standbyOutput n).pt.joinCount = s.pt.joinCount ∧ (s.standbyOutput n).pt.joinFlag = s.pt.joinFlag ∧
      (s.standbyOutput n).pt.firstOffered = s.pt.firstOffered := by
  simp [State.standbyOutput]

@[simp] theorem State.restoreOutput_peers (s : State) (n : OutputNo) :
    (s.restoreOutput n).pt.entries = s.pt.entries ∧ (s.restoreOutput n).pt.mode = s.pt.mode ∧
      (s.restoreOutput n).pt.joinCount = s.pt.joinCount ∧ (s.restoreOutput n).pt.joinFlag = s.pt.joinFlag ∧
      (s.restoreOutput n).pt.firstOffered = s.pt.firstOffered := by
  simp only [State.restoreOutput]
  (repeat' split) <;> simp

@[simp] theorem State.putInput_peers (s : State) (id : InputId) (r : InputRecord) :
    (s.putInput id r).pt.entries = s.pt.entries ∧ (s.putInput id r).pt.mode = s.pt.mode ∧
      (s.putInput id r).pt.joinCount = s.pt.joinCount ∧ (s.putInput id r).pt.joinFlag = s.pt.joinFlag ∧
      (s.putInput id r).pt.firstOffered = s.pt.firstOffered := by
  simp [State.putInput]

@[simp] theorem State.inputRound_peers (s : State) (id : InputId) (h : InputRound) (lr : LocalRound) :
    (s.inputRound id h lr).pt.entries = s.pt.entries ∧ (s.inputRound id h lr).pt.mode = s.pt.mode ∧
      (s.inputRound id h lr).pt.joinCount = s.pt.joinCount ∧ (s.inputRound id h lr).pt.joinFlag = s.pt.joinFlag ∧
      (s.inputRound id h lr).pt.firstOffered = s.pt.firstOffered := by
  simp only [State.inputRound]
  (repeat' split) <;> simp

@[simp] theorem State.powerInput_peers (s : State) (id : InputId) :
    (s.powerInput id).pt.entries = s.pt.entries ∧ (s.powerInput id).pt.mode = s.pt.mode ∧
      (s.powerInput id).pt.joinCount = s.pt.joinCount ∧ (s.powerInput id).pt.joinFlag = s.pt.joinFlag ∧
      (s.powerInput id).pt.firstOffered = s.pt.firstOffered := by
  simp only [State.powerInput]
  (repeat' split) <;> simp

@[simp] theorem State.unpowerInput_peers (s : State) (id : InputId) :
    (s.unpowerInput id).pt.entries = s.pt.entries ∧ (s.unpowerInput id).pt.mode = s.pt.mode ∧
      (s.unpowerInput id).pt.joinCount = s.pt.joinCount ∧ (s.unpowerInput id).pt.joinFlag = s.pt.joinFlag ∧
      (s.unpowerInput id).pt.firstOffered = s.pt.firstOffered := by
  simp [State.unpowerInput]

@[simp] theorem State.atInput_peers (s : State) (id : InputId) (f : InputRecord → InputRecord) :
    (s.atInput id f).pt.entries = s.pt.entries ∧ (s.atInput id f).pt.mode = s.pt.mode ∧ (s.atInput id f).pt.joinCount = s.pt.joinCount ∧
      (s.atInput id f).pt.joinFlag = s.pt.joinFlag ∧ (s.atInput id f).pt.firstOffered = s.pt.firstOffered := by
  simp only [State.atInput]
  (repeat' split) <;> simp

@[simp] theorem State.wake_peers (s : State) :
    (s.wake).pt.entries = s.pt.entries ∧ (s.wake).pt.mode = s.pt.mode ∧ (s.wake).pt.joinCount = s.pt.joinCount ∧
      (s.wake).pt.joinFlag = s.pt.joinFlag ∧ (s.wake).pt.firstOffered = s.pt.firstOffered := by
  simp [State.wake]

@[simp] theorem State.sourceRound_peers (s : State) (r : RoundBegin) (lr : LocalRound) :
    (s.sourceRound r lr).pt.entries = s.pt.entries ∧ (s.sourceRound r lr).pt.mode = s.pt.mode ∧
      (s.sourceRound r lr).pt.joinCount = s.pt.joinCount ∧ (s.sourceRound r lr).pt.joinFlag = s.pt.joinFlag ∧
      (s.sourceRound r lr).pt.firstOffered = s.pt.firstOffered := by
  simp [State.sourceRound, State.eachSource]

@[simp] theorem State.outputRound_peers (s : State) :
    (s.outputRound).pt.entries = s.pt.entries ∧ (s.outputRound).pt.mode = s.pt.mode ∧ (s.outputRound).pt.joinCount = s.pt.joinCount ∧
      (s.outputRound).pt.joinFlag = s.pt.joinFlag ∧ (s.outputRound).pt.firstOffered = s.pt.firstOffered := by
  simp [State.outputRound, State.eachOutput]

@[simp] theorem State.enterMode_peers (s : State) (old : Mode) :
    (s.enterMode old).pt.entries = s.pt.entries ∧ (s.enterMode old).pt.mode = s.pt.mode ∧
      (s.enterMode old).pt.joinCount = s.pt.joinCount ∧ (s.enterMode old).pt.joinFlag = s.pt.joinFlag ∧
      (s.enterMode old).pt.firstOffered = s.pt.firstOffered := by
  simp only [State.enterMode, State.eachOutput]
  (repeat' split) <;> simp

@[simp] theorem State.changeMode_peers (s : State) (m : Mode) :
    (s.changeMode m).pt.entries = s.pt.entries ∧ (s.changeMode m).pt.joinCount = s.pt.joinCount ∧
      (s.changeMode m).pt.joinFlag = s.pt.joinFlag ∧ (s.changeMode m).pt.firstOffered = s.pt.firstOffered := by
  simp only [State.changeMode]
  (repeat' split) <;> simp

@[simp] theorem State.rederiveMode_peers (s : State) :
    (s.rederiveMode).pt.entries = s.pt.entries ∧ (s.rederiveMode).pt.joinCount = s.pt.joinCount ∧
      (s.rederiveMode).pt.joinFlag = s.pt.joinFlag ∧ (s.rederiveMode).pt.firstOffered = s.pt.firstOffered := by
  simp only [State.rederiveMode]
  (repeat' split) <;> simp

@[simp] theorem State.afterTableLoss_peers (s : State) (freed : List Stream) :
    (s.afterTableLoss freed).pt.entries = s.pt.entries ∧ (s.afterTableLoss freed).pt.joinCount = s.pt.joinCount ∧
      (s.afterTableLoss freed).pt.joinFlag = s.pt.joinFlag ∧ (s.afterTableLoss freed).pt.firstOffered = s.pt.firstOffered := by
  simp only [State.afterTableLoss]
  (repeat' split) <;> simp

@[simp] theorem State.handRecords_peers (s : State) (old : ZoneRecord) :
    (s.handRecords old).pt.entries = s.pt.entries ∧ (s.handRecords old).pt.joinCount = s.pt.joinCount ∧
      (s.handRecords old).pt.joinFlag = s.pt.joinFlag ∧ (s.handRecords old).pt.firstOffered = s.pt.firstOffered := by
  simp only [State.handRecords]
  (repeat' split) <;> simp

@[simp] theorem State.applyZoneSet_peers (s : State) (f : ZoneSetFields) :
    (s.applyZoneSet f).pt.entries = s.pt.entries ∧ (s.applyZoneSet f).pt.joinCount = s.pt.joinCount ∧
      (s.applyZoneSet f).pt.joinFlag = s.pt.joinFlag ∧ (s.applyZoneSet f).pt.firstOffered = s.pt.firstOffered := by
  simp [State.applyZoneSet]

@[simp] theorem State.applyZoneState_peers (s : State) (c : Vector ZoneRecord 4) :
    (s.applyZoneState c).pt.entries = s.pt.entries ∧ (s.applyZoneState c).pt.joinCount = s.pt.joinCount ∧
      (s.applyZoneState c).pt.joinFlag = s.pt.joinFlag ∧ (s.applyZoneState c).pt.firstOffered = s.pt.firstOffered := by
  simp [State.applyZoneState]

@[simp] theorem State.closeWindow_peers (s : State) :
    (s.closeWindow).pt.entries = s.pt.entries ∧ (s.closeWindow).pt.mode = s.pt.mode ∧ (s.closeWindow).pt.joinFlag = s.pt.joinFlag ∧
      (s.closeWindow).pt.firstOffered = s.pt.firstOffered :=
  ⟨rfl, rfl, rfl, rfl⟩

@[simp] theorem State.endWindow_peers (s : State) :
    (s.endWindow).pt.entries = s.pt.entries ∧ (s.endWindow).pt.joinFlag = s.pt.joinFlag ∧
      (s.endWindow).pt.firstOffered = s.pt.firstOffered := by
  simp [State.endWindow, State.eachSource]

@[simp] theorem State.joinRound_peers (s : State) :
    (s.joinRound).pt.entries = s.pt.entries ∧ (s.joinRound).pt.joinFlag = s.pt.joinFlag ∧
      (s.joinRound).pt.firstOffered = s.pt.firstOffered := by
  simp only [State.joinRound]
  (repeat' split) <;> simp

@[simp] theorem State.presenceRound_peers (s : State) :
    (s.presenceRound).pt.entries = s.pt.entries ∧ (s.presenceRound).pt.mode = s.pt.mode ∧
      (s.presenceRound).pt.joinCount = s.pt.joinCount ∧ (s.presenceRound).pt.joinFlag = s.pt.joinFlag := by
  simp only [State.presenceRound]
  (repeat' split) <;> simp

@[simp] theorem State.deriveRoles_zones (s : State) :
    (s.deriveRoles).zt.records = s.zt.records ∧ (s.deriveRoles).zt.marks = s.zt.marks := by
  simp [State.deriveRoles]

@[simp] theorem State.refreshEntry_zones (s : State) (sender : Station) (c : Option PresenceContent) :
    (s.refreshEntry sender c).zt.records = s.zt.records ∧ (s.refreshEntry sender c).zt.marks = s.zt.marks := by
  simp only [State.refreshEntry]
  (repeat' split) <;> simp

@[simp] theorem State.peerRound_zones (s : State) :
    (s.peerRound).zt.records = s.zt.records ∧ (s.peerRound).zt.marks = s.zt.marks := by
  simp only [State.peerRound]
  (repeat' split) <;> simp

@[simp] theorem State.closeWindow_zones (s : State) :
    (s.closeWindow).zt.records = s.zt.records ∧ (s.closeWindow).zt.holders = s.zt.holders :=
  ⟨rfl, rfl⟩

@[simp] theorem State.endWindow_zones (s : State) :
    (s.endWindow).zt.records = s.zt.records ∧ (s.endWindow).zt.holders = s.zt.holders := by
  simp [State.endWindow, State.eachSource]

@[simp] theorem State.joinRound_zones (s : State) :
    (s.joinRound).zt.records = s.zt.records ∧ (s.joinRound).zt.holders = s.zt.holders := by
  simp only [State.joinRound]
  (repeat' split) <;> simp

@[simp] theorem State.applyZoneSet_zones (s : State) (f : ZoneSetFields) :
    (s.applyZoneSet f).zt.holders = s.zt.holders := by
  simp [State.applyZoneSet, ZoneTable.applySet]

@[simp] theorem State.applyZoneState_zones (s : State) (c : Vector ZoneRecord 4) :
    (s.applyZoneState c).zt.holders = s.zt.holders := by
  simp [State.applyZoneState, ZoneTable.applyState]

end Sys2Proof.Machine
end

