-- ==== Sys2Proof/Laws/Tables.lean ====
section
/-! SUPPORT. Laws of the slot table, the zone table and the publication records: each operation entry by entry. -/

namespace Sys2Proof.Machine

theorem none_or_some {α} (x : Option α) : x = none ∨ ∃ a, x = some a := by cases x <;> simp

theorem ofFn_getElem {α} {n} (f : Fin n → α) (i : Fin n) : (Vector.ofFn f)[i] = f i := by simp

theorem freeRuns_getElem (st : SlotTable) (f) (i : Fin 24) : (freeRuns st f)[i] = SlotTable.without st f i := by
  simp [freeRuns, SlotTable.without]

theorem placeRun_getElem (st : SlotTable) (f) (s k n) (i : Fin 24) :
   (placeRun (freeRuns st f) s k n)[i] = SlotTable.placed st f s k n i := by
  have := freeRuns_getElem st f i
  simp only [Fin.getElem_fin] at this
  simp [placeRun, SlotTable.placed, this]

theorem placementFits_iff (st : SlotTable) (stream kind start) : placementFits st stream kind start = true ↔
  (start.val + widthOf kind ≤ 24
                ∧ (∀ j : Fin 24, inRun kind start.val j.val = true → (st[j]).all (·.stream == stream) = true)
                ∧ SlotTable.allows st stream.station (· == stream) kind = true) := by
  simp only [placementFits, Bool.and_eq_true, decide_eq_true_eq, List.all_eq_true, List.mem_finRange, true_implies, SlotTable.allows, and_assoc, Bool.or_eq_true, Bool.not_eq_true']
  refine and_congr_right fun _ => and_congr_left fun _ => forall_congr' fun j => ?_
  cases inRun kind start.val j.val <;> cases st[j] <;> simp

/-- The data of every slot sent is 144 bytes, whatever the capture holds and also where its bytes are drawn (13.2). -/
@[simp] theorem CaptureContent.data_length (c : CaptureContent) (part draw : Nat) : (c.data part draw).length = 144 := by
  cases c <;> simp [CaptureContent.data, channelData, quarter, silentData, unstatedBlockData]

theorem State.changeTable_st (s : State) (c o) : (s.changeTable c o).st = c.table := by simp [State.changeTable]

theorem countSilence_getElem (st : SlotTable) (slot : SlotNo) (i : Fin 24) : (countSilence st slot).table[i] = SlotTable.silent st slot i := by
  simp only [countSilence, SlotTable.silent]
  rcases none_or_some st[slot] with hs | ⟨e, hs⟩
  · simp only [hs]
  · simp only [hs]
    split
    · exact freeRuns_getElem _ _ _
    · by_cases h : i = slot
      · subst h; simp
      · have : ¬ slot.val = i.val := fun e => h (Fin.ext e.symm)
        simp [this, h]

theorem readSlot_part {slot heard h d} (hr : readSlot slot heard = some (h, d)) : h.part ≤ slot.val ∧ slot.val - h.part + widthOf h.kind ≤ 24 ∧
    h.part < widthOf h.kind := by
  simp only [readSlot] at hr
  split at hr
  · split at hr
    · split at hr
      · rename_i hc
        simp only [Option.some.injEq, Prod.mk.injEq] at hr
        obtain ⟨rfl, _⟩ := hr
        simp only [Bool.and_eq_true, decide_eq_true_eq] at hc
        exact ⟨hc.1.2, hc.2, hc.1.1.2⟩
      · simp at hr
    · simp at hr
  · simp at hr

theorem validHeader_read {n slot heard h d} (hv : validHeader n slot heard = some (h, d)) : readSlot slot heard = some (h, d) := by
  simp only [validHeader] at hv
  split at hv
  · split at hv
    · rename_i hr _; simp only [Option.some.injEq, Prod.mk.injEq] at hv; obtain ⟨rfl, rfl⟩ := hv; exact hr
    · cases hv
  · cases hv

theorem exec_slotEnd {s : State} (h : s.takes = true) (slot heard) : exec (.slotEnd slot heard) s = .next (s.slotEnds slot heard).closeEvent := by
  simp [exec, execSlotEnd, h]

theorem State.slotEnds_st (s : State) (slot heard) : (s.slotEnds slot heard).st = (judgeSlot s.st slot
    ((validHeader s.rt.roundNumber slot heard).map (·.1))).table := by
  simp only [State.slotEnds]
  split <;> simp [State.judge]

theorem ZoneTable.holder_derived (s : State) (role : Role) (z : ZoneTable) (h : z.holders = s.deriveHolders) : z.holder role =
    holderOf s.pt.entries s.ownZone role := by
  simp only [ZoneTable.holder, h, State.deriveHolders]
  cases role <;> simp [Role.code, roleAt, allRoles]

theorem State.deriveRoles_holders (s : State) : s.deriveRoles.zt.holders = s.deriveHolders := by
  have h : ∀ x : State, x.setRoleStatuses.zt = x.zt := by intro x; simp
  simp only [State.deriveRoles, h, State.rebuildIf_frame]

theorem Publisher.get_set (p : Publisher) (src) (r) : (p.set src r).get src = r := by cases src <;> rfl

theorem Publisher.set_sentSlot (p : Publisher) (src) (r) : (p.set src r).sentSlot = p.sentSlot := by cases src <;> rfl

theorem State.settle_sentSlot (s : State) (src b) : (s.settle src b).sp.sentSlot = s.sp.sentSlot := by
  simp only [State.settle]; split <;> simp [Publisher.set_sentSlot]

/-- mode/joinFlag facts -/
theorem State.zonesWf_of {s t : State} (h : s.zonesWf) (hr : t.zt.records = s.zt.records) (hm : t.zt.marks = s.zt.marks) (hf : t.mayMarkFields =
    false → s.mayMarkFields = false) : t.zonesWf := by
  intro z
  obtain ⟨a,b,c⟩ := h z
  rw [hr, hm]
  exact ⟨a, b, fun h => c (hf h)⟩

theorem ZoneRecord.merge_wf {r c : ZoneRecord} {m : ZoneMarks} (h1 : r.wf) (h2 : m.wf r) (h3 : c.wf) : (r.merge m c).wf ∧ m.wf (r.merge m c) := by
  obtain ⟨p,l,v,mu,st⟩ := r; obtain ⟨p',l',v',mu',st'⟩ := c; obtain ⟨a,b,c,d,e⟩ := m
  simp only [ZoneRecord.wf, ZoneMarks.wf, ZoneRecord.merge] at *
  cases a <;> cases e <;> cases c <;> cases p <;> cases p' <;> cases st <;> cases st' <;> simp_all

theorem ZoneRecord.apply_wf {r : ZoneRecord} {f : ZoneSetFields} (h1 : r.wf) (hv : ∀ v, f.volume = some v → v ≤ 160) : (r.apply f).wf := by
  obtain ⟨p,l,v,mu,st⟩ := r; obtain ⟨z,fp,fl,fv,fm,fs⟩ := f
  simp only [ZoneRecord.wf, ZoneRecord.apply, programAndStandby] at *
  refine ⟨?_, ?_⟩
  · rcases fs with _ | _ | _ <;> rcases fp with _ | _ | _ <;> simp_all
  · cases fv with
    | none => exact h1.2
    | some x => exact hv x rfl

theorem ZoneMarks.apply_wf {r : ZoneRecord} {f : ZoneSetFields} {m : ZoneMarks} (h1 : r.wf) (h2 : m.wf r) : (m.apply r f).wf (r.apply f) := by
  obtain ⟨p,l,v,mu,st⟩ := r; obtain ⟨z,fp,fl,fv,fm,fs⟩ := f; obtain ⟨a,b,c,d,e⟩ := m
  simp only [ZoneRecord.wf, ZoneMarks.wf, ZoneMarks.apply, ZoneRecord.apply, programAndStandby] at *
  rcases fs with _ | _ | _ <;> rcases fp with _ | _ | _ <;> cases p <;> cases st <;> cases a <;> cases e <;> simp_all

theorem zoneSetFields_volume {p f} (h : zoneSetFields p = some f) : ∀ v, f.volume = some v → v ≤ 160 := by
  intro v hv
  simp only [zoneSetFields, bind, Option.bind_eq_some_iff, pure, Option.some.injEq] at h
  obtain ⟨zone, _, mask, _, program, _, listening, _, volume, hvol, mute, _, standby, _, rfl⟩ := h
  simp only at hv
  subst hv
  simp only [carriedField] at hvol
  split at hvol
  · simp only [Option.map_eq_some_iff, Option.bind_eq_some_iff, volumeOfByte, inRange] at hvol
    obtain ⟨a, ⟨b, _, h2⟩, h3⟩ := hvol
    split at h2
    · simp at h2 h3; omega
    · cases h2
  · cases hvol

theorem zoneStateRecord_wf {p i r} (h : zoneStateRecord p i = some r) : r.wf := by
  simp only [zoneStateRecord, bind, Option.bind_eq_some_iff, pure] at h
  obtain ⟨program, _, listening, _, volume, ⟨b, _, hv⟩, flags, _, h⟩ := h
  split at h
  · cases h
  · rename_i hf
    simp only [Option.some.injEq] at h; subst h
    simp only [ZoneRecord.wf]
    refine ⟨?_, ?_⟩
    · intro hs; simp only [hs, Bool.true_and] at hf; cases program <;> simp_all
    · simp only [volumeOfByte, inRange] at hv; split at hv
      · simp at hv; omega
      · cases hv

theorem zoneStateFields_wf {p v} (h : zoneStateFields p = some v) (z : Zone) : (v[z]).wf := by
  simp only [zoneStateFields, bind, Option.bind_eq_some_iff, pure, Option.some.injEq] at h
  obtain ⟨r0, h0, r1, h1, r2, h2, r3, h3, rfl⟩ := h
  fin_cases z
  · exact zoneStateRecord_wf h0
  · exact zoneStateRecord_wf h1
  · exact zoneStateRecord_wf h2
  · exact zoneStateRecord_wf h3

theorem ZoneMarks.clear_wf (r : ZoneRecord) : ZoneMarks.clear.wf r := by simp [ZoneMarks.wf, ZoneMarks.clear]

theorem State.applySet_zonesWf {s : State} {f : ZoneSetFields} {t : State} (h : s.zonesWf) (hv : ∀ v, f.volume = some v → v ≤ 160)
   (ht : t.zt.records = (s.zt.applySet f s.mayMarkFields).records) (hm : t.zt.marks = (s.zt.applySet f s.mayMarkFields).marks) (hf :
     t.mayMarkFields = false → s.mayMarkFields = false) : t.zonesWf := by
  intro z
  rw [ht, hm]
  simp only [ZoneTable.applySet]
  obtain ⟨a,b,c⟩ := h z
  by_cases hz : f.zone = z
  · subst hz
    refine ⟨?_, ?_, ?_⟩
    · simpa using ZoneRecord.apply_wf a hv
    · cases hmm : s.mayMarkFields
      · simp only [Bool.false_eq_true, if_false]; rw [c hmm]; exact ZoneMarks.clear_wf _
      · simp only [if_true]; simpa using ZoneMarks.apply_wf a b
    · intro h'; simp [hf h']; simpa using c (hf h')
  · have : ¬ f.zone.val = z.val := fun e => hz (Fin.ext e)
    refine ⟨?_, ?_, ?_⟩
    · simpa [Vector.getElem_set, this] using a
    · cases hmm : s.mayMarkFields <;> simpa [Vector.getElem_set, this] using b
    · intro h'; simp [hf h']; simpa using c (hf h')

theorem State.applyState_zonesWf {s t : State} {carried : Vector ZoneRecord 4} (h : s.zonesWf) (hc : ∀ z : Zone, (carried[z]).wf)
   (ht : t.zt.records = (s.zt.applyState carried).records) (hm : t.zt.marks = s.zt.marks) (hf : t.mayMarkFields = false → s.mayMarkFields =
     false) : t.zonesWf := by
  intro z
  rw [ht, hm]
  obtain ⟨a,b,d⟩ := h z
  have := ZoneRecord.merge_wf a b (hc z)
  simp only [ZoneTable.applyState]
  refine ⟨?_, ?_, fun h => d (hf h)⟩
  · simpa using this.1
  · simpa using this.2

end Sys2Proof.Machine
end

