-- ==== Sys2Proof/Laws/Offers.lean ====
section
/-! SUPPORT. Laws of the transmit queue: every operation but a position's end changes it by offers alone. -/

namespace Sys2Proof.Machine

/-- A queue reached from another by offers; with no class 0 among them where the flag is clear. -/
def LinkController.Offers (zero : Bool) (a b : LinkController) : Prop :=
  ∃ ms : List Msg, (∀ m ∈ ms, zero = false → m.cls ≠ 0) ∧ b = ms.foldl LinkController.offer a

theorem LinkController.Offers.refl (zero : Bool) (a : LinkController) : LinkController.Offers zero a a := ⟨[], by simp, rfl⟩

theorem LinkController.Offers.snoc {zero : Bool} {a b : LinkController} (h : LinkController.Offers zero a b) (m : Msg)
    (hm : zero = false → m.cls ≠ 0) : LinkController.Offers zero a (b.offer m) := by
  obtain ⟨ms, h1, rfl⟩ := h
  refine ⟨ms ++ [m], ?_, by simp⟩
  intro x hx
  rcases List.mem_append.mp hx with hx | hx
  · exact h1 x hx
  · simp at hx; subst hx; exact hm

theorem LinkController.Offers.offerMaybe {a b : LinkController} (h : LinkController.Offers true a b) (m : Option Msg) :
    LinkController.Offers true a (b.offerMaybe m) := by
  cases m with
  | none => exact h
  | some m => exact h.snoc m (by simp)

/-- What holds of a queue and survives every offer holds of the queue reached. -/
theorem LinkController.Offers.keeps {zero : Bool} {a b : LinkController} (h : LinkController.Offers zero a b) (P : LinkController → Prop)
    (hP : ∀ l m, (zero = false → m.cls ≠ 0) → P l → P (l.offer m)) (ha : P a) : P b := by
  obtain ⟨ms, h1, rfl⟩ := h
  induction ms generalizing a with
  | nil => exact ha
  | cons m ms ih => exact ih (hP _ _ (h1 m List.mem_cons_self) ha) (fun x hx => h1 x (List.mem_cons_of_mem _ hx))

theorem State.offer_offers {z : Bool} {l : LinkController} (s : State) (m : Msg) (hm : z = false → m.cls ≠ 0)
    (hl : LinkController.Offers z l s.lc) :
    LinkController.Offers z l (s.offer m).lc := by
  exact hl.snoc m hm

theorem State.offerReply_offers {z : Bool} {l : LinkController} (s : State) (r : Requester) (k : RequestKind) (o : ReplyOutcome) (v : Option Nat)
    (hl : LinkController.Offers z l s.lc) :
    LinkController.Offers z l (s.offerReply r k o v).lc := by
  exact State.offer_offers s _ (by simp [Msg.cls]) hl

theorem State.refuse_offers {z : Bool} {l : LinkController} (s : State) (sender : Station) (payload : List Byte) (k : RequestKind) (o : ReplyOutcome)
    (hl : LinkController.Offers z l s.lc) :
    LinkController.Offers z l (s.refuse sender payload k o).lc := by
  exact State.offerReply_offers s _ _ _ _ hl

theorem State.closeEvent_offers {z : Bool} {l : LinkController} (s : State)
    (hl : LinkController.Offers z l s.lc) :
    LinkController.Offers z l (s.closeEvent).lc := by
  simp only [State.closeEvent]
  split <;> split <;> first | exact hl | exact (hl.snoc _ (by simp [Msg.cls])) | exact ((hl.snoc _ (by simp [Msg.cls])).snoc _ (by simp [Msg.cls]))

theorem State.answerJoin_offers {z : Bool} {l : LinkController} (s : State) (sender : Station) (b : Bool)
    (hl : LinkController.Offers z l s.lc) :
    LinkController.Offers z l (s.answerJoin sender b).lc := by
  simp only [State.answerJoin]
  split
  · exact hl.snoc _ (by simp [Msg.cls])
  · exact hl

theorem State.settle_offers {l : LinkController} (s : State) (src : Source) (b : Bool)
    (hl : LinkController.Offers true l s.lc) :
    LinkController.Offers true l (s.settle src b).lc := by
  simp only [State.settle]
  split
  · exact hl.offerMaybe _
  · exact hl

theorem State.followDemand_offers {l : LinkController} (s : State) (src : Source)
    (hl : LinkController.Offers true l s.lc) :
    LinkController.Offers true l (s.followDemand src).lc := by
  simp only [State.followDemand]
  (repeat' split) <;> repeat (first | with_reducible exact hl | (with_reducible apply State.settle_offers) | simp)

theorem State.followKind_offers {l : LinkController} (s : State) (src : Source) (k : Kind)
    (hl : LinkController.Offers true l s.lc) :
    LinkController.Offers true l (s.followKind src k).lc := by
  simp only [State.followKind]
  (repeat' split) <;> repeat (first | with_reducible exact hl | (with_reducible apply State.settle_offers) | simp)

theorem State.followDemands_offers {l : LinkController} (s : State)
    (hl : LinkController.Offers true l s.lc) :
    LinkController.Offers true l (s.followDemands).lc := by
  simp only [State.followDemands, State.eachSource]
  repeat (first | with_reducible exact hl | (with_reducible apply State.followDemand_offers) | simp)

theorem State.afterFreeing_offers {l : LinkController} (s : State) (freed : List Stream) (src : Source)
    (hl : LinkController.Offers true l s.lc) :
    LinkController.Offers true l (s.afterFreeing freed src).lc := by
  simp only [State.afterFreeing]
  (repeat' split) <;> repeat (first | with_reducible exact hl | (with_reducible apply State.settle_offers) | simp)

theorem State.handFreed_offers {l : LinkController} (s : State) (freed : List Stream)
    (hl : LinkController.Offers true l s.lc) :
    LinkController.Offers true l (s.handFreed freed).lc := by
  simp only [State.handFreed, State.eachSource]
  repeat (first | with_reducible exact hl | (with_reducible apply State.afterFreeing_offers) | simp)

theorem State.ownTaken_offers {l : LinkController} (s : State) (src : Source)
    (hl : LinkController.Offers true l s.lc) :
    LinkController.Offers true l (s.ownTaken src).lc := by
  simp only [State.ownTaken]
  repeat (first | with_reducible exact hl | (with_reducible apply State.settle_offers) | simp)

theorem State.ownTakenAt_offers {l : LinkController} (s : State) (src : Option Source)
    (hl : LinkController.Offers true l s.lc) :
    LinkController.Offers true l (s.ownTakenAt src).lc := by
  simp only [State.ownTakenAt]
  (repeat' split) <;> repeat (first | with_reducible exact hl | (with_reducible apply State.ownTaken_offers) | simp)

theorem State.offerAgain_offers {l : LinkController} (s : State) (src : Source)
    (hl : LinkController.Offers true l s.lc) :
    LinkController.Offers true l (s.offerAgain src).lc := by
  simp only [State.offerAgain]
  (repeat' split) <;> first | exact hl | exact hl.snoc _ (by simp)

theorem State.putInput_offers {l : LinkController} (s : State) (id : InputId) (r : InputRecord)
    (hl : LinkController.Offers true l s.lc) :
    LinkController.Offers true l (s.putInput id r).lc := by
  simp only [State.putInput]
  repeat (first | with_reducible exact hl | (with_reducible apply State.followKind_offers) | simp)

theorem State.inputRound_offers {l : LinkController} (s : State) (id : InputId) (h : InputRound) (lr : LocalRound)
    (hl : LinkController.Offers true l s.lc) :
    LinkController.Offers true l (s.inputRound id h lr).lc := by
  simp only [State.inputRound]
  (repeat' split) <;> repeat (first | with_reducible exact hl | (with_reducible apply State.putInput_offers) | simp)

theorem State.powerInput_offers {l : LinkController} (s : State) (id : InputId)
    (hl : LinkController.Offers true l s.lc) :
    LinkController.Offers true l (s.powerInput id).lc := by
  simp only [State.powerInput]
  (repeat' split) <;> repeat (first | with_reducible exact hl | (with_reducible apply State.putInput_offers) | simp)

theorem State.unpowerInput_offers {l : LinkController} (s : State) (id : InputId)
    (hl : LinkController.Offers true l s.lc) :
    LinkController.Offers true l (s.unpowerInput id).lc := by
  simp only [State.unpowerInput]
  repeat (first | with_reducible exact hl | (with_reducible apply State.putInput_offers) | simp)

theorem State.atInput_offers {l : LinkController} (s : State) (id : InputId) (f : InputRecord → InputRecord)
    (hl : LinkController.Offers true l s.lc) :
    LinkController.Offers true l (s.atInput id f).lc := by
  simp only [State.atInput]
  (repeat' split) <;> repeat (first | with_reducible exact hl | (with_reducible apply State.putInput_offers) | simp)

theorem State.takeEntries_offers {z : Bool} {l : LinkController} (s : State) (q : List StoreEntry)
    (hl : LinkController.Offers z l s.lc) :
    LinkController.Offers z l (s.takeEntries q).lc := by
  induction q generalizing s with
  | nil => exact hl
  | cons e rest ih =>
    unfold State.takeEntries
    (repeat' split) <;> first | exact hl | exact ih _ (State.offerReply_offers _ _ _ _ _ hl)

theorem State.engineBegin_offers {z : Bool} {l : LinkController} (s : State)
    (hl : LinkController.Offers z l s.lc) :
    LinkController.Offers z l (s.engineBegin).lc := by
  simp only [State.engineBegin]
  (repeat' split) <;> repeat (first | with_reducible exact hl | (with_reducible apply State.takeEntries_offers) | simp)

theorem State.commit_offers {z : Bool} {l : LinkController} (s : State) (p : Programming)
    (hl : LinkController.Offers z l s.lc) :
    LinkController.Offers z l (s.commit p).lc := by
  simp only [State.commit]
  (repeat' split) <;> repeat (first | with_reducible exact hl | (with_reducible apply State.engineBegin_offers) | (with_reducible apply State.offerReply_offers) | simp)

theorem State.supersede_offers {z : Bool} {l : LinkController} (s : State) (r : SlotRef)
    (hl : LinkController.Offers z l s.lc) :
    LinkController.Offers z l (s.supersede r).lc := by
  simp only [State.supersede]
  repeat (first | with_reducible exact hl | (with_reducible apply State.engineBegin_offers) | simp)

theorem State.endErase_offers {z : Bool} {l : LinkController} (s : State) (c : Compaction)
    (hl : LinkController.Offers z l s.lc) :
    LinkController.Offers z l (s.endErase c).lc := by
  simp only [State.endErase]
  repeat (first | with_reducible exact hl | (with_reducible apply State.engineBegin_offers) | simp)

theorem State.endCopy_offers {z : Bool} {l : LinkController} (s : State) (c : Compaction)
    (hl : LinkController.Offers z l s.lc) :
    LinkController.Offers z l (s.endCopy c).lc := by
  simp only [State.endCopy]
  repeat (first | with_reducible exact hl | (with_reducible apply State.engineBegin_offers) | simp)

theorem State.endHeader_offers {z : Bool} {l : LinkController} (s : State) (c : Compaction)
    (hl : LinkController.Offers z l s.lc) :
    LinkController.Offers z l (s.endHeader c).lc := by
  simp only [State.endHeader]
  repeat (first | with_reducible exact hl | (with_reducible apply State.engineBegin_offers) | simp)

theorem State.answerRead_offers {z : Bool} {l : LinkController} (s : State) (n : Fin 30) (r : Requester)
    (hl : LinkController.Offers z l s.lc) :
    LinkController.Offers z l (s.answerRead n r).lc := by
  simp only [State.answerRead]
  (repeat' split) <;> repeat (first | with_reducible exact hl | (with_reducible refine State.offer_offers _ _ (by simp [Msg.cls]) ?_) | (with_reducible apply State.offerReply_offers) | simp)

theorem State.endOperation_offers {z : Bool} {l : LinkController} (s : State) (op : Operation) (o : ReplyOutcome) (v : Option Nat)
    (hl : LinkController.Offers z l s.lc) :
    LinkController.Offers z l (s.endOperation op o v).lc := by
  simp only [State.endOperation]
  repeat (first | with_reducible exact hl | (with_reducible apply State.offerReply_offers) | simp)

theorem State.abortOperation_offers {z : Bool} {l : LinkController} (s : State)
    (hl : LinkController.Offers z l s.lc) :
    LinkController.Offers z l (s.abortOperation).lc := by
  simp only [State.abortOperation]
  (repeat' split) <;> repeat (first | with_reducible exact hl | (with_reducible apply State.endOperation_offers) | simp)

theorem State.listenAndEnd_offers {z : Bool} {l : LinkController} (s : State) (op : Operation) (c : Counter) (o : ReplyOutcome) (v : Option Nat)
    (hl : LinkController.Offers z l s.lc) :
    LinkController.Offers z l (s.listenAndEnd op c o v).lc := by
  simp only [State.listenAndEnd]
  repeat (first | with_reducible exact hl | (with_reducible apply State.endOperation_offers) | simp)

theorem State.seekClose_offers {z : Bool} {l : LinkController} (s : State) (op : Operation) (c : Counter)
    (hl : LinkController.Offers z l s.lc) :
    LinkController.Offers z l (s.seekClose op c).lc := by
  simp only [State.seekClose]
  (repeat' split) <;> repeat (first | with_reducible exact hl | (with_reducible apply State.listenAndEnd_offers) | simp)

theorem State.actOnMeasurement_offers {z : Bool} {l : LinkController} (s : State) (c : Counter)
    (hl : LinkController.Offers z l s.lc) :
    LinkController.Offers z l (s.actOnMeasurement c).lc := by
  simp only [State.actOnMeasurement]
  (repeat' split) <;> repeat (first | with_reducible exact hl | (with_reducible apply State.seekClose_offers) | (with_reducible apply State.listenAndEnd_offers) | simp)

theorem State.gateCloses_offers {z : Bool} {l : LinkController} (s : State) (c : Counter)
    (hl : LinkController.Offers z l s.lc) :
    LinkController.Offers z l (s.gateCloses c).lc := by
  simp only [State.gateCloses]
  (repeat' split) <;> repeat (first | with_reducible exact hl | (with_reducible apply State.actOnMeasurement_offers) | simp)

theorem State.phaseStep_offers {z : Bool} {l : LinkController} (s : State)
    (hl : LinkController.Offers z l s.lc) :
    LinkController.Offers z l (s.phaseStep).lc := by
  simp only [State.phaseStep]
  (repeat' split) <;> repeat (first | with_reducible exact hl | (with_reducible apply State.gateCloses_offers) | simp)

theorem State.tunerRound_offers {z : Bool} {l : LinkController} (s : State) (fe : FrontEnd) (d : Demodulated)
    (hl : LinkController.Offers z l s.lc) :
    LinkController.Offers z l (s.tunerRound fe d).lc := by
  simp only [State.tunerRound]
  (repeat' split) <;> repeat (first | with_reducible exact hl | (with_reducible apply State.phaseStep_offers) | simp)

theorem State.stopTuner_offers {z : Bool} {l : LinkController} (s : State)
    (hl : LinkController.Offers z l s.lc) :
    LinkController.Offers z l (s.stopTuner).lc := by
  simp only [State.stopTuner]
  repeat (first | with_reducible exact hl | (with_reducible apply State.abortOperation_offers) | simp)

theorem State.startOperation_offers {z : Bool} {l : LinkController} (s : State) (op : Operation)
    (hl : LinkController.Offers z l s.lc) :
    LinkController.Offers z l (s.startOperation op).lc := by
  simp only [State.startOperation]
  repeat (first | with_reducible exact hl | (with_reducible apply State.abortOperation_offers) | simp)

theorem State.startTune_offers {z : Bool} {l : LinkController} (s : State) (r : Requester) (b : Band) (f : Nat)
    (hl : LinkController.Offers z l s.lc) :
    LinkController.Offers z l (s.startTune r b f).lc := by
  simp only [State.startTune]
  repeat (first | with_reducible exact hl | (with_reducible apply State.startOperation_offers) | (with_reducible apply State.settle_offers) | simp)

theorem State.startSeek_offers {z : Bool} {l : LinkController} (s : State) (r : Requester) (d : Direction)
    (hl : LinkController.Offers z l s.lc) :
    LinkController.Offers z l (s.startSeek r d).lc := by
  simp only [State.startSeek]
  repeat (first | with_reducible exact hl | (with_reducible apply State.startOperation_offers) | simp)

theorem State.startScan_offers {z : Bool} {l : LinkController} (s : State) (r : Requester)
    (hl : LinkController.Offers z l s.lc) :
    LinkController.Offers z l (s.startScan r).lc := by
  simp only [State.startScan]
  repeat (first | with_reducible exact hl | (with_reducible apply State.startOperation_offers) | simp)

theorem State.recallResult_offers {z : Bool} {l : LinkController} (s : State) (r : Option RecordSlot)
    (hl : LinkController.Offers z l s.lc) :
    LinkController.Offers z l (s.recallResult r).lc := by
  simp only [State.recallResult]
  (repeat' split) <;> repeat (first | with_reducible exact hl | (with_reducible apply State.endOperation_offers) | (with_reducible apply State.settle_offers) | simp)

theorem State.startRecall_offers {z : Bool} {l : LinkController} (s : State) (r : Requester) (n : Fin 30)
    (hl : LinkController.Offers z l s.lc) :
    LinkController.Offers z l (s.startRecall r n).lc := by
  simp only [State.startRecall]
  (repeat' split) <;> repeat (first | with_reducible exact hl | (with_reducible apply State.recallResult_offers) | (with_reducible apply State.startOperation_offers) | simp)

theorem State.deliverRead_offers {z : Bool} {l : LinkController} (s : State) (r : Read)
    (hl : LinkController.Offers z l s.lc) :
    LinkController.Offers z l (s.deliverRead r).lc := by
  simp only [State.deliverRead]
  (repeat' split) <;> repeat (first | with_reducible exact hl | (with_reducible apply State.recallResult_offers) | (with_reducible apply State.answerRead_offers) | simp)

theorem State.completeRead_offers {z : Bool} {l : LinkController} (s : State) (r : Read) (rest : List Read)
    (hl : LinkController.Offers z l s.lc) :
    LinkController.Offers z l (s.completeRead r rest).lc := by
  simp only [State.completeRead]
  repeat (first | with_reducible exact hl | (with_reducible apply State.deliverRead_offers) | (with_reducible apply State.engineBegin_offers) | simp)

theorem State.acceptEntry_offers {z : Bool} {l : LinkController} (s : State) (e : StoreEntry)
    (hl : LinkController.Offers z l s.lc) :
    LinkController.Offers z l (s.acceptEntry e).lc := by
  simp only [State.acceptEntry]
  repeat (first | with_reducible exact hl | (with_reducible apply State.engineBegin_offers) | (with_reducible apply State.offerReply_offers) | simp)

theorem State.onStoreEntry_offers {z : Bool} {l : LinkController} (s : State) (sender : Station) (payload : List Byte) (k : RequestKind) (e : Option StoreEntry)
    (hl : LinkController.Offers z l s.lc) :
    LinkController.Offers z l (s.onStoreEntry sender payload k e).lc := by
  simp only [State.onStoreEntry]
  (repeat' split) <;> repeat (first | with_reducible exact hl | (with_reducible apply State.acceptEntry_offers) | (with_reducible apply State.refuse_offers) | simp)

theorem State.onPresetRead_offers {z : Bool} {l : LinkController} (s : State) (sender : Station) (payload : List Byte)
    (hl : LinkController.Offers z l s.lc) :
    LinkController.Offers z l (s.onPresetRead sender payload).lc := by
  simp only [State.onPresetRead]
  (repeat' split) <;> repeat (first | with_reducible exact hl | (with_reducible apply State.refuse_offers) | simp)

theorem State.onListRead_offers {z : Bool} {l : LinkController} (s : State) (sender : Station) (payload : List Byte)
    (hl : LinkController.Offers z l s.lc) :
    LinkController.Offers z l (s.onListRead sender payload).lc := by
  simp only [State.onListRead]
  (repeat' split) <;> repeat (first | with_reducible exact hl | (with_reducible refine State.offer_offers _ _ (by simp [Msg.cls]) ?_) | (with_reducible apply State.refuse_offers) | simp)

theorem State.onStatusQuery_offers {z : Bool} {l : LinkController} (s : State) (sender : Station) (payload : List Byte)
    (hl : LinkController.Offers z l s.lc) :
    LinkController.Offers z l (s.onStatusQuery sender payload).lc := by
  simp only [State.onStatusQuery]
  (repeat' split) <;> repeat (first | with_reducible exact hl | (with_reducible apply State.refuse_offers) | simp)

theorem State.wake_offers {l : LinkController} (s : State)
    (hl : LinkController.Offers true l s.lc) :
    LinkController.Offers true l (s.wake).lc := by
  simp only [State.wake]
  repeat (first | with_reducible exact hl | (with_reducible apply State.powerInput_offers) | simp)

theorem State.enterMode_offers {l : LinkController} (s : State) (old : Mode)
    (hl : LinkController.Offers true l s.lc) :
    LinkController.Offers true l (s.enterMode old).lc := by
  simp only [State.enterMode, State.eachOutput]
  (repeat' split) <;> repeat (first | with_reducible exact hl | (with_reducible apply State.wake_offers) | (with_reducible apply State.stopTuner_offers) | (with_reducible apply State.unpowerInput_offers) | simp)

theorem State.changeMode_offers {l : LinkController} (s : State) (m : Mode)
    (hl : LinkController.Offers true l s.lc) :
    LinkController.Offers true l (s.changeMode m).lc := by
  simp only [State.changeMode]
  (repeat' split) <;> repeat (first | with_reducible exact hl | (with_reducible apply State.enterMode_offers) | simp)

theorem State.rederiveMode_offers {l : LinkController} (s : State)
    (hl : LinkController.Offers true l s.lc) :
    LinkController.Offers true l (s.rederiveMode).lc := by
  simp only [State.rederiveMode]
  (repeat' split) <;> repeat (first | with_reducible exact hl | (with_reducible apply State.changeMode_offers) | simp)

theorem State.afterTableLoss_offers {l : LinkController} (s : State) (freed : List Stream)
    (hl : LinkController.Offers true l s.lc) :
    LinkController.Offers true l (s.afterTableLoss freed).lc := by
  simp only [State.afterTableLoss]
  (repeat' split) <;> repeat (first | with_reducible exact hl | (with_reducible apply State.rederiveMode_offers) | (with_reducible apply State.handFreed_offers) | simp)

theorem State.handRecords_offers {l : LinkController} (s : State) (old : ZoneRecord)
    (hl : LinkController.Offers true l s.lc) :
    LinkController.Offers true l (s.handRecords old).lc := by
  simp only [State.handRecords]
  (repeat' split) <;> repeat (first | with_reducible exact hl | (with_reducible apply State.rederiveMode_offers) | (with_reducible apply State.followDemands_offers) | simp)

theorem State.applyZoneSet_offers {l : LinkController} (s : State) (f : ZoneSetFields)
    (hl : LinkController.Offers true l s.lc) :
    LinkController.Offers true l (s.applyZoneSet f).lc := by
  simp only [State.applyZoneSet]
  repeat (first | with_reducible exact hl | (with_reducible apply State.handRecords_offers) | simp)

theorem State.applyZoneState_offers {l : LinkController} (s : State) (c : Vector ZoneRecord 4)
    (hl : LinkController.Offers true l s.lc) :
    LinkController.Offers true l (s.applyZoneState c).lc := by
  simp only [State.applyZoneState]
  repeat (first | with_reducible exact hl | (with_reducible apply State.handRecords_offers) | simp)

theorem State.sourceRound_offers {l : LinkController} (s : State) (r : RoundBegin) (lr : LocalRound)
    (hl : LinkController.Offers true l s.lc) :
    LinkController.Offers true l (s.sourceRound r lr).lc := by
  simp only [State.sourceRound, State.eachSource]
  repeat (first | with_reducible exact hl | (with_reducible apply State.tunerRound_offers) | (with_reducible apply State.inputRound_offers) | (with_reducible apply State.offerAgain_offers) | simp)

theorem State.endWindow_offers {l : LinkController} (s : State)
    (hl : LinkController.Offers true l s.lc) :
    LinkController.Offers true l (s.endWindow).lc := by
  simp only [State.endWindow, State.eachSource]
  repeat (first | with_reducible exact hl | (with_reducible apply State.changeMode_offers) | (with_reducible apply State.settle_offers) | simp)

theorem State.joinRound_offers {l : LinkController} (s : State)
    (hl : LinkController.Offers true l s.lc) :
    LinkController.Offers true l (s.joinRound).lc := by
  simp only [State.joinRound]
  (repeat' split) <;> repeat (first | with_reducible exact hl | (with_reducible apply State.endWindow_offers) | simp)

theorem State.changeTable_offers {l : LinkController} (s : State) (c : TableChange) (o : Option Source)
    (hl : LinkController.Offers true l s.lc) :
    LinkController.Offers true l (s.changeTable c o).lc := by
  simp only [State.changeTable]
  repeat (first | with_reducible exact hl | (with_reducible apply State.rederiveMode_offers) | (with_reducible apply State.ownTakenAt_offers) | (with_reducible apply State.handFreed_offers) | simp)

theorem State.mapRole_offers {z : Bool} {l : LinkController} (s : State) (r : Requester) (n : OutputNo) (x : Option Role)
    (hl : LinkController.Offers z l s.lc) :
    LinkController.Offers z l (s.mapRole r n x).lc := by
  simp only [State.mapRole]
  repeat (first | with_reducible exact hl | (with_reducible apply State.offerReply_offers) | simp)

theorem State.onRoleMap_offers {z : Bool} {l : LinkController} (s : State) (sender : Station) (payload : List Byte)
    (hl : LinkController.Offers z l s.lc) :
    LinkController.Offers z l (s.onRoleMap sender payload).lc := by
  simp only [State.onRoleMap]
  (repeat' split) <;> repeat (first | with_reducible exact hl | (with_reducible apply State.mapRole_offers) | (with_reducible apply State.refuse_offers) | simp)

theorem State.onTune_offers {z : Bool} {l : LinkController} (s : State) (sender : Station) (payload : List Byte)
    (hl : LinkController.Offers z l s.lc) :
    LinkController.Offers z l (s.onTune sender payload).lc := by
  simp only [State.onTune, State.tunerRequest]
  (repeat' split) <;> repeat (first | with_reducible exact hl | (with_reducible apply State.startTune_offers) | (with_reducible apply State.refuse_offers) | simp)

theorem State.onSeek_offers {z : Bool} {l : LinkController} (s : State) (sender : Station) (payload : List Byte)
    (hl : LinkController.Offers z l s.lc) :
    LinkController.Offers z l (s.onSeek sender payload).lc := by
  simp only [State.onSeek, State.tunerRequest]
  (repeat' split) <;> repeat (first | with_reducible exact hl | (with_reducible apply State.startSeek_offers) | (with_reducible apply State.refuse_offers) | simp)

theorem State.onScan_offers {z : Bool} {l : LinkController} (s : State) (sender : Station) (payload : List Byte)
    (hl : LinkController.Offers z l s.lc) :
    LinkController.Offers z l (s.onScan sender payload).lc := by
  simp only [State.onScan, State.tunerRequest]
  (repeat' split) <;> repeat (first | with_reducible exact hl | (with_reducible apply State.startScan_offers) | (with_reducible apply State.refuse_offers) | simp)

theorem State.onPresetRecall_offers {z : Bool} {l : LinkController} (s : State) (sender : Station) (payload : List Byte)
    (hl : LinkController.Offers z l s.lc) :
    LinkController.Offers z l (s.onPresetRecall sender payload).lc := by
  simp only [State.onPresetRecall, State.tunerRequest]
  (repeat' split) <;> repeat (first | with_reducible exact hl | (with_reducible apply State.startRecall_offers) | (with_reducible apply State.refuse_offers) | simp)

theorem State.judge_offers {l : LinkController} (s : State) (slot : SlotNo) (h : Option SlotHeader)
    (hl : LinkController.Offers true l s.lc) :
    LinkController.Offers true l (s.judge slot h).lc := by
  simp only [State.judge]
  repeat (first | with_reducible exact hl | (with_reducible apply State.afterTableLoss_offers) | simp)

theorem State.driveMute_offers {z : Bool} {l : LinkController} (s : State) (on : Bool)
    (hl : LinkController.Offers z l s.lc) :
    LinkController.Offers z l (s.driveMute on).lc := by
  simp only [State.driveMute]
  (repeat' split) <;> repeat (first | with_reducible exact hl | (with_reducible apply State.closeEvent_offers) | simp)

theorem State.startJoin_offers {l : LinkController} (s : State)
    (hl : LinkController.Offers true l s.lc) :
    LinkController.Offers true l (s.startJoin).lc := by
  simp only [State.startJoin]
  repeat (first | with_reducible exact hl | (with_reducible apply State.powerInput_offers) | simp)

end Sys2Proof.Machine
end

