-- ==== Sys2Proof/Laws/Queue.lean ====
section
/-! SUPPORT. Laws of the transmit queue: what an offer, the opening and the end of a position, and a round begin leave of it (R19 to R28). -/

namespace Sys2Proof.Machine

/-! ## Entering and dropping -/

theorem enterQueue_length (q : List QueueEntry) (m : Msg) : (enterQueue q m).length = q.length + 1 := by
  have h := congrArg List.length (List.takeWhile_append_dropWhile (p := fun e : QueueEntry => decide (e.msg.cls ≤ m.cls)) (l := q))
  simp only [List.length_append] at h
  simp only [enterQueue, List.length_append, List.length_cons]
  omega

theorem enterQueue_mem (q : List QueueEntry) (m : Msg) (e : QueueEntry) :
    e ∈ enterQueue q m ↔ e = { msg := m, inFlight := false } ∨ e ∈ q := by
  have h : e ∈ q ↔ e ∈ q.takeWhile (fun e => decide (e.msg.cls ≤ m.cls)) ∨ e ∈ q.dropWhile (fun e => decide (e.msg.cls ≤ m.cls)) := by
    rw [← List.mem_append, List.takeWhile_append_dropWhile]
  simp only [enterQueue, List.mem_append, List.mem_cons, h]
  tauto

theorem enterQueue_countP (q : List QueueEntry) (m : Msg) (p : QueueEntry → Bool) :
    (enterQueue q m).countP p = q.countP p + if p { msg := m, inFlight := false } = true then 1 else 0 := by
  have h : q.countP p = (q.takeWhile fun e => decide (e.msg.cls ≤ m.cls)).countP p + (q.dropWhile fun e => decide (e.msg.cls ≤ m.cls)).countP p := by
    rw [← List.countP_append, List.takeWhile_append_dropWhile]
  simp only [enterQueue, List.countP_append, List.countP_cons, h]
  omega

/-- A queue in class order. -/
def ordered (q : List QueueEntry) : Prop := q.Pairwise fun a b => a.msg.cls ≤ b.msg.cls

theorem dropWhile_above (q : List QueueEntry) (c : Nat) (h : ordered q) :
    ∀ e ∈ q.dropWhile (fun e => decide (e.msg.cls ≤ c)), c < e.msg.cls := by
  induction q with
  | nil => simp
  | cons a q ih =>
    have hq := List.pairwise_cons.mp h
    simp only [List.dropWhile_cons]
    split
    · exact ih hq.2
    · rename_i hc
      simp only [decide_eq_true_eq, not_le] at hc
      intro e he
      rcases List.mem_cons.mp he with rfl | he
      · exact hc
      · exact lt_of_lt_of_le hc (hq.1 e he)

theorem enterQueue_ordered (q : List QueueEntry) (m : Msg) (h : ordered q) : ordered (enterQueue q m) := by
  have hs := List.takeWhile_append_dropWhile (p := fun e : QueueEntry => decide (e.msg.cls ≤ m.cls)) (l := q)
  have ht : ∀ e ∈ q.takeWhile (fun e => decide (e.msg.cls ≤ m.cls)), e.msg.cls ≤ m.cls := by
    intro e he
    simpa using List.mem_takeWhile_imp he
  have hd := dropWhile_above q m.cls h
  unfold ordered at h
  rw [← hs, List.pairwise_append] at h
  unfold ordered enterQueue
  refine List.pairwise_append.mpr ⟨h.1, List.pairwise_cons.mpr ⟨fun e he => (hd e he).le, h.2.1⟩, ?_⟩
  intro a ha b hb
  rcases List.mem_cons.mp hb with rfl | hb
  · exact ht a ha
  · exact (ht a ha).trans (hd b hb).le

theorem dropYoungest_some {q r : List QueueEntry} (h : dropYoungest q = some r) :
    ∃ a e b, q = a ++ e :: b ∧ r = a ++ b ∧ e.msg.cls = 3 ∧ e.inFlight = false := by
  induction q generalizing r with
  | nil => simp [dropYoungest] at h
  | cons x q ih =>
    simp only [dropYoungest] at h
    split at h
    · rename_i r' hr
      obtain ⟨a, e, b, rfl, rfl, h1, h2⟩ := ih hr
      cases h
      exact ⟨x :: a, e, b, rfl, rfl, h1, h2⟩
    · split at h
      · rename_i hc
        cases h
        simp only [Bool.and_eq_true, beq_iff_eq, Bool.not_eq_true'] at hc
        exact ⟨[], x, q, rfl, rfl, hc.1, hc.2⟩
      · cases h

theorem dropYoungest_none {q : List QueueEntry} : dropYoungest q = none ↔ ∀ e ∈ q, e.msg.cls = 3 → e.inFlight = true := by
  induction q with
  | nil => simp [dropYoungest]
  | cons x q ih =>
    simp only [dropYoungest, List.mem_cons, forall_eq_or_imp]
    split
    · rename_i r' hr
      simp only [reduceCtorEq, false_iff, not_and]
      intro _ h
      rw [ih.mpr h] at hr
      cases hr
    · rename_i hr
      rw [← ih]
      by_cases h3 : x.msg.cls = 3 <;> cases hf : x.inFlight <;> simp [h3, hr]

/-! ## Offers -/

@[simp] theorem LinkController.offer_flags (lc : LinkController) (m : Msg) :
    (lc.offer m).sendFlag = lc.sendFlag ∧ (lc.offer m).windowOpen = lc.windowOpen ∧ (lc.offer m).positions = lc.positions ∧
      (lc.offer m).voidDriven = lc.voidDriven := by
  simp only [LinkController.offer]
  (repeat' split) <;> (try simp only [LinkController.defer]) <;> (try split) <;> simp

theorem LinkController.Offers.flags {z : Bool} {a b : LinkController} (h : LinkController.Offers z a b) :
    b.sendFlag = a.sendFlag ∧ b.windowOpen = a.windowOpen ∧ b.positions = a.positions ∧ b.voidDriven = a.voidDriven :=
  h.keeps (fun l => l.sendFlag = a.sendFlag ∧ l.windowOpen = a.windowOpen ∧ l.positions = a.positions ∧ l.voidDriven = a.voidDriven)
    (fun l m _ hl => by simpa using hl) ⟨rfl, rfl, rfl, rfl⟩

/-- A replacement in place changes the messages of the kind alone, and leaves the flights. -/
theorem coalesces_cls {a b : Msg} (h : coalesces a b = true) : a.cls = b.cls := by
  cases a <;> cases b <;> simp_all [coalesces, Msg.cls]

theorem coalesces_kind {a b : Msg} (h : coalesces a b = true) : a.isPresence = b.isPresence ∧ a.isStatus = b.isStatus := by
  cases a <;> cases b <;> simp_all [coalesces, Msg.isPresence, Msg.isStatus]

/-- A message of a kind that is not replaced in place, offered to a queue with room, enters it. -/
theorem LinkController.offer_enters (lc : LinkController) (m : Msg) (hr : lc.queue.length < 8)
    (hc : lc.queue.any (fun e => coalesces e.msg m) = false) : (lc.offer m).queue = enterQueue lc.queue m := by
  have hf : lc.queue.find? (fun e => coalesces e.msg m) = none := by
    simpa [List.find?_eq_none] using hc
  simp [LinkController.offer, hf, hr]

theorem coalesces_false {a m : Msg} (h1 : m.isPresence = false) (h2 : m.isStatus = false) : coalesces a m = false := by
  cases a <;> cases m <;> simp_all [coalesces, Msg.isPresence, Msg.isStatus]

/-- A message that is neither PRESENCE nor STATUS stays in the queue through every offer outside class 0. -/
theorem LinkController.offer_keeps {lc : LinkController} {m x : Msg} (hm : m.cls ≠ 0) (h1 : x.isPresence = false) (h2 : x.isStatus = false)
    (hx : ∃ e ∈ lc.queue, e.msg = x) : ∃ e ∈ (lc.offer m).queue, e.msg = x := by
  obtain ⟨e, he, rfl⟩ := hx
  simp only [LinkController.offer]
  split
  · split
    · refine ⟨e, ?_, rfl⟩
      cases m <;> exact he
    · refine ⟨_, List.mem_map_of_mem he, ?_⟩
      split
      · rename_i hc
        have := coalesces_kind hc
        cases m <;> simp_all [Msg.isPresence, Msg.isStatus, coalesces]
      · rfl
  · split
    · exact ⟨e, (enterQueue_mem _ _ _).mpr (Or.inr he), rfl⟩
    · simp only [beq_iff_eq, hm, if_false]
      exact ⟨e, he, rfl⟩

theorem LinkController.Offers.keepsMsg {a b : LinkController} (h : LinkController.Offers false a b) {x : Msg} (h1 : x.isPresence = false)
    (h2 : x.isStatus = false) (hx : ∃ e ∈ a.queue, e.msg = x) : ∃ e ∈ b.queue, e.msg = x :=
  h.keeps (fun l => ∃ e ∈ l.queue, e.msg = x) (fun _ _ hm hl => LinkController.offer_keeps (hm rfl) h1 h2 hl) hx

theorem LinkController.offer_wf {lc : LinkController} (h : lc.wf) (m : Msg) : (lc.offer m).wf := by
  obtain ⟨h1, h2, h3, h4, h5⟩ := h
  simp only [LinkController.offer]
  split
  · rename_i e hf
    split
    · cases m <;> exact ⟨h1, h2, h3, h4, h5⟩
    · refine ⟨by simpa using h1, ?_, ?_, ?_, ?_⟩
      · rw [List.pairwise_map]
        refine h2.imp ?_
        intro a b hab
        have hcls : ∀ x : QueueEntry, (if coalesces x.msg m = true then ({ x with msg := m } : QueueEntry) else x).msg.cls = x.msg.cls := by
          intro x
          split
          · rename_i hx
            exact (coalesces_cls hx).symm
          · rfl
        rw [hcls, hcls]
        exact hab
      · rw [List.countP_map]
        refine le_trans (List.countP_mono_left ?_) h3
        intro x _ hx
        simp only [Function.comp] at hx
        split at hx
        · rename_i hc
          rw [(coalesces_kind hc).1]
          exact hx
        · exact hx
      · rw [List.countP_map]
        refine le_trans (List.countP_mono_left ?_) h4
        intro x _ hx
        simp only [Function.comp] at hx
        split at hx
        · rename_i hc
          rw [(coalesces_kind hc).2]
          exact hx
        · exact hx
      · rw [List.countP_map]
        refine le_trans (List.countP_mono_left ?_) h5
        intro x _ hx
        simp only [Function.comp] at hx
        split at hx <;> exact hx
  · rename_i hf
    have hno : ∀ e ∈ lc.queue, coalesces e.msg m = false := by simpa [List.find?_eq_none] using hf
    have hp : m.isPresence = true → lc.queue.countP (·.msg.isPresence) = 0 := by
      intro hm
      rw [List.countP_eq_zero]
      intro e he hep
      have := hno e he
      cases hx : e.msg <;> cases m <;> simp_all [coalesces, Msg.isPresence]
    have hs : m.isStatus = true → lc.queue.countP (·.msg.isStatus) = 0 := by
      intro hm
      rw [List.countP_eq_zero]
      intro e he hep
      have := hno e he
      cases hx : e.msg <;> cases m <;> simp_all [coalesces, Msg.isStatus]
    split
    · rename_i hl
      refine ⟨by simp only [enterQueue_length]; omega, enterQueue_ordered _ _ h2, ?_, ?_, ?_⟩
      · simp only [enterQueue_countP]
        split
        · rename_i hm
          rw [hp hm]
        · exact h3
      · simp only [enterQueue_countP]
        split
        · rename_i hm
          rw [hs hm]
        · exact h4
      · simpa [enterQueue_countP] using h5
    · split
      · rename_i h0
        simp only [beq_iff_eq] at h0
        have hmp : m.isPresence = false := by cases m <;> simp_all [Msg.cls, Msg.isPresence]
        have hms : m.isStatus = false := by cases m <;> simp_all [Msg.cls, Msg.isStatus]
        split
        · rename_i q hq
          obtain ⟨a, e, b, ha, rfl, _, _⟩ := dropYoungest_some hq
          rw [ha] at h1 h2 h3 h4 h5
          have hsub : (a ++ b).Sublist (a ++ e :: b) := List.Sublist.append (List.Sublist.refl a) (List.sublist_cons_self e b)
          refine ⟨?_, enterQueue_ordered _ _ (h2.sublist hsub), ?_, ?_, ?_⟩
          · simp only [enterQueue_length, List.length_append, List.length_cons] at h1 ⊢
            omega
          · simpa [enterQueue_countP, hmp] using (hsub.countP_le (p := fun x : QueueEntry => x.msg.isPresence)).trans h3
          · simpa [enterQueue_countP, hms] using (hsub.countP_le (p := fun x : QueueEntry => x.msg.isStatus)).trans h4
          · simpa [enterQueue_countP] using (hsub.countP_le (p := fun x : QueueEntry => x.inFlight)).trans h5
        · exact ⟨h1, h2, h3, h4, h5⟩
      · exact ⟨h1, h2, h3, h4, h5⟩

theorem LinkController.Offers.wf {z : Bool} {a b : LinkController} (h : LinkController.Offers z a b) (ha : a.wf) : b.wf :=
  h.keeps LinkController.wf (fun _ m _ hl => LinkController.offer_wf hl m) ha

/-! ## Positions -/

theorem LinkController.inFlight_none {lc : LinkController} (h : lc.inFlight = none) : ∀ e ∈ lc.queue, e.inFlight = false := by
  simpa [LinkController.inFlight, List.find?_eq_none] using h

theorem LinkController.inFlight_some {lc : LinkController} {m : Msg} (h : lc.inFlight = some m) :
    ∃ e ∈ lc.queue, e.inFlight = true ∧ e.msg = m := by
  simp only [LinkController.inFlight, Option.map_eq_some_iff] at h
  obtain ⟨e, he, rfl⟩ := h
  exact ⟨e, List.mem_of_find?_eq_some he, by simpa using List.find?_some he, rfl⟩

/-- A content set aside is of the kind of its message. -/
theorem LinkController.deferredFor_kind {lc : LinkController} {m d : Msg} (h : lc.deferredFor m = some d) :
    d.cls = m.cls ∧ d.isPresence = m.isPresence ∧ d.isStatus = m.isStatus := by
  cases m <;> simp [LinkController.deferredFor] at h <;> obtain ⟨x, _, rfl⟩ := h <;> simp [Msg.cls, Msg.isPresence, Msg.isStatus]

theorem LinkController.clearDeferred_queue (lc : LinkController) (m : Msg) : (lc.clearDeferred m).queue = lc.queue := by
  cases m <;> rfl

theorem LinkController.clearDeferred_flags (lc : LinkController) (m : Msg) :
    (lc.clearDeferred m).sendFlag = lc.sendFlag ∧ (lc.clearDeferred m).windowOpen = lc.windowOpen ∧
      (lc.clearDeferred m).positions = lc.positions ∧ (lc.clearDeferred m).voidDriven = lc.voidDriven := by
  cases m <;> simp [LinkController.clearDeferred]

/-- What a flight that stops makes of an entry. -/
def LinkController.landed (lc : LinkController) (m : Msg) (e : QueueEntry) : QueueEntry :=
  if e.inFlight then { msg := (lc.deferredFor m).getD e.msg, inFlight := false } else e

theorem LinkController.stopFlight_queue (lc : LinkController) :
    lc.stopFlight.queue = match lc.inFlight with
      | none => lc.queue
      | some m => lc.queue.map (lc.landed m) := by
  simp only [LinkController.stopFlight]
  split <;> simp_all [LinkController.landed]

/-- After a flight stops, no message is in flight. -/
theorem LinkController.stopFlight_grounded (lc : LinkController) : ∀ e ∈ lc.stopFlight.queue, e.inFlight = false := by
  rw [LinkController.stopFlight_queue]
  split
  · rename_i h
    exact LinkController.inFlight_none h
  · intro e he
    obtain ⟨x, _, rfl⟩ := List.mem_map.mp he
    simp only [LinkController.landed]
    split <;> simp_all

@[simp] theorem LinkController.stopFlight_length (lc : LinkController) : lc.stopFlight.queue.length = lc.queue.length := by
  rw [LinkController.stopFlight_queue]
  split <;> simp

/-- In a queue of its form the one entry in flight is the message in flight. -/
theorem LinkController.wf_flight {lc : LinkController} (h : lc.wf) {m : Msg} (hm : lc.inFlight = some m) :
    ∀ e ∈ lc.queue, e.inFlight = true → e.msg = m := by
  obtain ⟨x, hx, hxf, rfl⟩ := LinkController.inFlight_some hm
  intro e he hef
  have h5 := h.2.2.2.2
  rw [List.countP_eq_length_filter] at h5
  have m1 : x ∈ lc.queue.filter (fun e => e.inFlight) := by simp [hx, hxf]
  have m2 : e ∈ lc.queue.filter (fun e => e.inFlight) := by simp [he, hef]
  match hq : lc.queue.filter (fun e => e.inFlight) with
  | [] => simp [hq] at m1
  | [a] =>
    rw [hq] at m1 m2
    simp only [List.mem_singleton] at m1 m2
    rw [m1, m2]
  | a :: b :: r =>
    rw [hq] at h5
    simp at h5

theorem LinkController.landed_kind {lc : LinkController} (h : lc.wf) {m : Msg} (hm : lc.inFlight = some m) :
    ∀ e ∈ lc.queue, (lc.landed m e).msg.cls = e.msg.cls ∧ (lc.landed m e).msg.isPresence = e.msg.isPresence ∧
      (lc.landed m e).msg.isStatus = e.msg.isStatus := by
  intro e he
  simp only [LinkController.landed]
  split
  · rename_i hf
    have hem := LinkController.wf_flight h hm e he hf
    cases hd : lc.deferredFor m with
    | none => simp
    | some d => simpa [hem] using LinkController.deferredFor_kind hd
  · simp

theorem LinkController.stopFlight_wf {lc : LinkController} (h : lc.wf) : lc.stopFlight.wf := by
  refine ⟨by simpa using h.1, ?_, ?_, ?_, ?_⟩
  · rw [LinkController.stopFlight_queue]
    split
    · exact h.2.1
    · rename_i m hm
      rw [List.pairwise_map]
      refine List.Pairwise.imp_of_mem ?_ h.2.1
      intro a b ha hb hab
      rw [(LinkController.landed_kind h hm a ha).1, (LinkController.landed_kind h hm b hb).1]
      exact hab
  · rw [LinkController.stopFlight_queue]
    split
    · exact h.2.2.1
    · rename_i m hm
      rw [List.countP_map]
      refine le_trans (List.countP_mono_left ?_) h.2.2.1
      intro x hx hp
      rw [← (LinkController.landed_kind h hm x hx).2.1]
      exact hp
  · rw [LinkController.stopFlight_queue]
    split
    · exact h.2.2.2.1
    · rename_i m hm
      rw [List.countP_map]
      refine le_trans (List.countP_mono_left ?_) h.2.2.2.1
      intro x hx hp
      rw [← (LinkController.landed_kind h hm x hx).2.2]
      exact hp
  · rw [List.countP_eq_zero.mpr]
    · omega
    · intro e he
      simp [LinkController.stopFlight_grounded lc e he]

theorem LinkController.removeTaken_queue (lc : LinkController) {m : Msg} (hm : lc.inFlight = some m) :
    lc.removeTaken.queue = match lc.deferredFor m with
      | some d => enterQueue (lc.queue.filter fun e => !e.inFlight) d
      | none => lc.queue.filter fun e => !e.inFlight := by
  simp only [LinkController.removeTaken, hm] <;> (cases lc.deferredFor m <;> rfl)

theorem LinkController.removeTaken_wf {lc : LinkController} (h : lc.wf) : lc.removeTaken.wf := by
  cases hm : lc.inFlight with
  | none => simpa [LinkController.removeTaken, hm] using h
  | some m =>
    have hsub : (lc.queue.filter fun e => !e.inFlight).Sublist lc.queue := List.filter_sublist
    obtain ⟨x, hx, hxf, hxm⟩ := LinkController.inFlight_some hm
    have hlt : (lc.queue.filter fun e => !e.inFlight).length < lc.queue.length := by
      refine List.length_filter_lt_length_iff_exists.mpr ⟨x, hx, ?_⟩
      simp [hxf]
    have h0 : (lc.queue.filter fun e => !e.inFlight).countP (·.inFlight) = 0 := by
      rw [List.countP_eq_zero]
      intro e he
      simpa using (List.mem_filter.mp he).2
    have base : ordered (lc.queue.filter fun e => !e.inFlight) := h.2.1.sublist hsub
    have split : ∀ p : QueueEntry → Bool, p x = true → (lc.queue.filter fun e => !e.inFlight).countP p + 1 ≤ lc.queue.countP p := by
      intro p hp
      have h1 : 0 < (lc.queue.filter fun e => e.inFlight).countP p := List.countP_pos_iff.mpr ⟨x, by simp [hx, hxf], hp⟩
      have h2 : lc.queue.countP p = (lc.queue.filter fun e => e.inFlight).countP p + (lc.queue.filter fun e => !e.inFlight).countP p := by
        rw [List.countP_eq_countP_filter_add lc.queue p fun e => e.inFlight]
      omega
    unfold LinkController.wf
    rw [LinkController.removeTaken_queue lc hm]
    cases hd : lc.deferredFor m with
    | none =>
      refine ⟨(hsub.length_le).trans h.1, base, (hsub.countP_le).trans h.2.2.1, (hsub.countP_le).trans h.2.2.2.1, ?_⟩
      simp only
      omega
    | some d =>
      have hk := LinkController.deferredFor_kind hd
      refine ⟨by simp only [enterQueue_length]; have := h.1; omega, enterQueue_ordered _ _ base, ?_, ?_, ?_⟩
      · simp only [enterQueue_countP]
        split
        · rename_i hp
          have := split (fun e => e.msg.isPresence) (by simp only [hxm, ← hk.2.1]; exact hp)
          have := h.2.2.1
          omega
        · exact (hsub.countP_le).trans h.2.2.1
      · simp only [enterQueue_countP]
        split
        · rename_i hp
          have := split (fun e => e.msg.isStatus) (by simp only [hxm, ← hk.2.2]; exact hp)
          have := h.2.2.2.1
          omega
        · exact (hsub.countP_le).trans h.2.2.2.1
      · simp only [enterQueue_countP, h0]
        simp

theorem LinkController.endPosition_wf {lc : LinkController} (h : lc.wf) (own : Station) (f : ArbField) (taken void : Bool) :
    (lc.endPosition own f taken void).wf := by
  simp only [LinkController.endPosition]
  split
  · split
    · exact LinkController.removeTaken_wf h
    · exact LinkController.stopFlight_wf h
  · exact LinkController.stopFlight_wf h

/-- A queue of its form in which nothing is in flight. -/
theorem LinkController.endPosition_grounded (lc : LinkController) (own : Station) (f : ArbField) (taken void : Bool) :
    ∀ e ∈ (lc.endPosition own f taken void).queue, e.inFlight = false := by
  simp only [LinkController.endPosition]
  split
  · rename_i ho
    split
    · cases hm : lc.inFlight with
      | none => simp [LinkController.isOwnPosition, hm] at ho
      | some m =>
        intro e he
        simp only [LinkController.removeTaken_queue lc hm] at he
        split at he
        · rcases (enterQueue_mem _ _ _).mp he with rfl | he
          · rfl
          · simpa using (List.mem_filter.mp he).2
        · simpa using (List.mem_filter.mp he).2
    · exact LinkController.stopFlight_grounded lc
  · exact LinkController.stopFlight_grounded lc

theorem LinkController.beginRound_wf {lc : LinkController} (h : lc.wf) : lc.beginRound.wf := LinkController.stopFlight_wf h

theorem LinkController.beginRound_grounded (lc : LinkController) : ∀ e ∈ lc.beginRound.queue, e.inFlight = false :=
  LinkController.stopFlight_grounded lc

theorem LinkController.openPosition_wf {lc : LinkController} (h : lc.wf) (hg : ∀ e ∈ lc.queue, e.inFlight = false) : lc.openPosition.wf := by
  simp only [LinkController.openPosition]
  split
  · obtain ⟨h1, h2, h3, h4, _⟩ := h
    unfold LinkController.wf
    cases hq : lc.queue with
    | nil => simp
    | cons e rest =>
      rw [hq] at h1 h2 h3 h4 hg
      refine ⟨by simpa using h1, ?_, ?_, ?_, ?_⟩
      · simpa [List.pairwise_cons] using h2
      · simpa [List.countP_cons] using h3
      · simpa [List.countP_cons] using h4
      · have hz : rest.countP (·.inFlight) = 0 := by
          rw [List.countP_eq_zero]
          intro x hx
          simp [hg x (List.mem_cons_of_mem _ hx)]
        simp [hz]
  · exact h

/-- An offer flies nothing. -/
theorem LinkController.offer_grounded {lc : LinkController} (m : Msg) (h : ∀ e ∈ lc.queue, e.inFlight = false) :
    ∀ e ∈ (lc.offer m).queue, e.inFlight = false := by
  simp only [LinkController.offer]
  split
  · split
    · cases m <;> exact h
    · intro e he
      obtain ⟨x, hx, rfl⟩ := List.mem_map.mp he
      split <;> exact h x hx
  · split
    · intro e he
      rcases (enterQueue_mem _ _ _).mp he with rfl | he
      · rfl
      · exact h e he
    · split
      · split
        · rename_i q hq
          obtain ⟨a, x, b, ha, rfl, _, _⟩ := dropYoungest_some hq
          intro e he
          rcases (enterQueue_mem _ _ _).mp he with rfl | he
          · rfl
          · refine h e ?_
            rw [ha]
            rcases List.mem_append.mp he with he | he
            · exact List.mem_append_left _ he
            · exact List.mem_append_right _ (List.mem_cons_of_mem _ he)
        · exact h
      · exact h

theorem LinkController.Offers.grounded {z : Bool} {a b : LinkController} (h : LinkController.Offers z a b)
    (ha : ∀ e ∈ a.queue, e.inFlight = false) : ∀ e ∈ b.queue, e.inFlight = false :=
  h.keeps (fun l => ∀ e ∈ l.queue, e.inFlight = false) (fun _ m _ hl => LinkController.offer_grounded m hl) ha

end Sys2Proof.Machine
end

