-- ==== Sys2Proof/Laws/Takes.lean ====
section
/-! SUPPORT. Laws of a take and of the end of an event: what ending a position, closing an event and opening the next position do to the queue, the
peer entry of the sender, and the offers. -/

namespace Sys2Proof.Machine

theorem State.onTake_takes {s : State} (h : s.takes = true) (f act) : s.onTake f act = (act s.endMark (s.endMark.takeMessage f)).closePosition := by
  simp [State.onTake, h]

theorem State.onRequest_takes {s : State} (ht : s.takes = true) {p} (ha : addressedTo s.own p = true) (cls k act) :
   s.onRequest cls k p act = (act (s.endMark.takeMessage ⟨cls, k⟩)).closePosition := by
  rw [State.onRequest, State.onTake_takes ht, if_pos (by simpa [State.own] using ha)]

theorem State.takeMessage_heard (s : State) (f : ArbField) (e : PeerEntry) : (s.takeMessage f).pt.entries[f.sender] = some e → e.silence = 0 := by
  simp [State.takeMessage, hearFrom]; rintro a h rfl; rfl

theorem LinkController.isOwnPosition_flight {lc : LinkController} {own f} (h : lc.isOwnPosition own f = true) : ∃ m, lc.inFlight = some m := by
  cases hm : lc.inFlight with
  | none => simp [LinkController.isOwnPosition, hm] at h
  | some m => exact ⟨m, rfl⟩

theorem LinkController.endPosition_sendFlag {lc : LinkController} {own f taken v} (h : lc.isOwnPosition own f = true) :
   (lc.endPosition own f taken v).sendFlag = true := by
  obtain ⟨m, hm⟩ := LinkController.isOwnPosition_flight h
  simp only [LinkController.endPosition, h, if_true]
  split
  · simp [LinkController.removeTaken, hm]
  · rfl

theorem LinkController.deferredFor_none {lc : LinkController} (h : lc.nothingDeferred = true) (m) : lc.deferredFor m = none := by
  simp [LinkController.nothingDeferred] at h
  cases m <;> simp [LinkController.deferredFor, h]

theorem LinkController.stopFlight_msgs {lc : LinkController} (h : lc.nothingDeferred = true) : lc.stopFlight.queue.map (·.msg) = lc.queue.map
    (·.msg) := by
  rw [LinkController.stopFlight_queue]
  split
  · rfl
  · rename_i m hm
    simp only [List.map_map, List.map_inj_left, Function.comp, LinkController.landed, LinkController.deferredFor_none h]
    intro e _
    split <;> rfl

theorem LinkController.endPosition_msgs {lc : LinkController} (h : lc.nothingDeferred = true) (own f taken v) :
  (lc.endPosition own f taken v).queue.map (·.msg) =
    (if (taken && lc.isOwnPosition own f) = true then lc.queue.filter (fun e => !e.inFlight) else lc.queue).map (·.msg) := by
  simp only [LinkController.endPosition]
  cases ho : lc.isOwnPosition own f with
  | false => simp [LinkController.stopFlight_msgs h]
  | true =>
    obtain ⟨m, hm⟩ := LinkController.isOwnPosition_flight ho
    cases taken
    · simp [LinkController.stopFlight_msgs h]
    · simp [LinkController.removeTaken_queue lc hm, LinkController.deferredFor_none h]

theorem LinkController.openPosition_msgs (lc : LinkController) : lc.openPosition.queue.map (·.msg) = lc.queue.map (·.msg) := by
  simp only [LinkController.openPosition]
  split
  · cases lc.queue <;> simp
  · rfl

theorem LinkController.openPosition_flags (lc : LinkController) : lc.openPosition.sendFlag = lc.sendFlag ∧ lc.openPosition.voidDriven =
    lc.voidDriven := by
  simp only [LinkController.openPosition]
  split <;> simp

/-! ## The end of the round mark -/

/-- The end of the mark leaves every flag but the one of the mark. -/
theorem LinkController.endMark_flags (lc : LinkController) : lc.endMark.sendFlag = lc.sendFlag ∧ lc.endMark.windowOpen = lc.windowOpen ∧
    lc.endMark.positions = lc.positions ∧ lc.endMark.voidDriven = lc.voidDriven ∧ lc.endMark.deferredPresence = lc.deferredPresence ∧
    lc.endMark.deferredStatus = lc.deferredStatus ∧ lc.endMark.markOnLink = false := by
  cases h : lc.markOnLink <;> cases h2 : lc.inFlight <;> simp [LinkController.endMark, LinkController.openPosition, h, h2] <;> split <;> simp

/-- The end of the mark leaves the messages of the queue, in their order. -/
theorem LinkController.endMark_msgs (lc : LinkController) : lc.endMark.queue.map (·.msg) = lc.queue.map (·.msg) := by
  simp only [LinkController.endMark]
  split
  · split
    · exact LinkController.openPosition_msgs lc
    · rfl
  · rfl

theorem LinkController.endMark_length (lc : LinkController) : lc.endMark.queue.length = lc.queue.length := by
  simpa using congrArg List.length (LinkController.endMark_msgs lc)

theorem LinkController.endMark_mem {lc : LinkController} (P : Msg → Prop) : (∀ e ∈ lc.endMark.queue, P e.msg) ↔ ∀ e ∈ lc.queue, P e.msg := by
  have h : ∀ q : List QueueEntry, (∀ e ∈ q, P e.msg) ↔ ∀ m ∈ q.map (·.msg), P m := by simp
  rw [h, LinkController.endMark_msgs, ← h]

theorem LinkController.endMark_nothingDeferred (lc : LinkController) : lc.endMark.nothingDeferred = lc.nothingDeferred := by
  simp [LinkController.nothingDeferred, LinkController.endMark_flags]

theorem LinkController.endMark_wf {lc : LinkController} (h : lc.wf) : lc.endMark.wf := by
  simp only [LinkController.endMark]
  split
  · split
    · rename_i hn
      exact LinkController.openPosition_wf h (LinkController.inFlight_none (by simpa using hn))
    · exact h
  · exact h

theorem State.endMark_room {s : State} (h : s.hasRoom = true) : s.endMark.hasRoom = true := by
  simpa [State.hasRoom, State.endMark, LinkController.endMark_length] using h

theorem State.quiet_iff {s : State} : s.quiet = true ↔ s.cr.statusDue = false ∧ s.pt.presenceDue = false := by
  simp [State.quiet]

theorem State.closeEvent_quiet {s : State} (h1 : s.cr.statusDue = false) (h2 : s.pt.presenceDue = false) : s.closeEvent = s := by
  rcases s with ⟨rt,lc,pt,st,sp,sr,zt,ir,pd,mm,om,sm,tb,ps,cl,cr,rc,pins,fd,pe⟩
  rcases cr with ⟨a,b⟩; rcases pt with ⟨a,b,c,d,e,f⟩
  simp_all [State.closeEvent]

theorem State.closePosition_quiet {s : State} (h1 : s.cr.statusDue = false) (h2 : s.pt.presenceDue = false) :
    s.closePosition = { s with lc := s.lc.openPosition } := by
  simp only [State.closePosition, State.closeEvent_quiet h1 h2]

theorem State.closePosition_wf {s : State} {a : LinkController} {z} (ha : a.wf) (hg : ∀ e ∈ a.queue, e.inFlight = false)
   (h : LinkController.Offers z a s.lc) : s.closePosition.lc.wf := by
  have h' := s.closeEvent_offers h
  exact LinkController.openPosition_wf (h'.wf ha) (h'.grounded hg)

theorem State.onTake_wf {s : State} (f : ArbField) (act : State → State → State) (h : s.lc.wf)
   (ha : ∀ b x : State, LinkController.Offers true x.lc (act b x).lc) : (s.onTake f act).lc.wf := by
  simp only [State.onTake]
  split
  · refine State.closePosition_wf (a := (s.endMark.takeMessage f).lc) ?_ ?_ (ha _ _)
    · exact LinkController.endPosition_wf (LinkController.endMark_wf h) _ _ _ _
    · exact LinkController.endPosition_grounded _ _ _ _ _
  · exact h

theorem LinkController.Offers.weaken {z} {a b : LinkController} (h : LinkController.Offers z a b) : LinkController.Offers true a b := by
  obtain ⟨ms, _, h⟩ := h; exact ⟨ms, by simp, h⟩

theorem LinkController.coalesces_unique {lc : LinkController} (h : lc.wf) {e x : QueueEntry} {m : Msg} (he : e ∈ lc.queue) (hx : x ∈ lc.queue)
   (h1 : coalesces e.msg m = true) (h2 : coalesces x.msg m = true) : e = x := by
  have key : ∀ p : QueueEntry → Bool, lc.queue.countP p ≤ 1 → p e = true → p x = true → e = x := by
    intro p hp h1 h2
    rw [List.countP_eq_length_filter] at hp
    have m1 : x ∈ lc.queue.filter p := by simp [hx, h2]
    have m2 : e ∈ lc.queue.filter p := by simp [he, h1]
    match hq : lc.queue.filter p with
    | [] => simp [hq] at m1
    | [a] => rw [hq] at m1 m2; simp at m1 m2; rw [m1, m2]
    | a :: b :: r => rw [hq] at hp; simp at hp
  cases hm : m with
  | presence c => exact key _ h.2.2.1 (by rw [(coalesces_kind h1).1, hm]; rfl) (by rw [(coalesces_kind h2).1, hm]; rfl)
  | status c => exact key _ h.2.2.2.1 (by rw [(coalesces_kind h1).2, hm]; rfl) (by rw [(coalesces_kind h2).2, hm]; rfl)
  | _ => rw [hm] at h1; rw [coalesces_false rfl rfl] at h1; cases h1

theorem LinkController.openPosition_mem {lc : LinkController} {m : Msg} : (∃ e ∈ lc.openPosition.queue, e.msg = m) ↔ ∃ e ∈ lc.queue, e.msg = m := by
  have := LinkController.openPosition_msgs lc
  have h : (∃ e ∈ lc.openPosition.queue, e.msg = m) ↔ m ∈ lc.openPosition.queue.map (·.msg) := by simp
  rw [h, this]; simp

theorem State.closePosition_queued {x : State} {m : Msg} (h1 : m.isPresence = false) (h2 : m.isStatus = false) (h : x.queued m) :
    x.closePosition.queued m := by
  rw [State.queued, State.closePosition, LinkController.openPosition_mem]
  exact (State.closeEvent_offers (z := false) _ (.refl _ _)).keepsMsg h1 h2 h

theorem LinkController.endPosition_room {lc : LinkController} {own f t v} (h : lc.queue.length < 8) :
    (lc.endPosition own f t v).queue.length < 8 := by
  simp only [LinkController.endPosition]
  split
  · rename_i ho
    obtain ⟨m, hm⟩ := LinkController.isOwnPosition_flight ho
    split
    · simp only [LinkController.removeTaken_queue lc hm]
      obtain ⟨x, hx, hxf, _⟩ := LinkController.inFlight_some hm
      have : (lc.queue.filter fun e => !e.inFlight).length < lc.queue.length := List.length_filter_lt_length_iff_exists.mpr ⟨x, hx, by simp [hxf]⟩
      split
      · simp only [enterQueue_length]; omega
      · omega
    · simpa using h
  · simpa using h

theorem State.takeMessage_room {s : State} {f} (h : s.hasRoom = true) : (s.endMark.takeMessage f).lc.queue.length < 8 := by
  have h' := State.endMark_room h
  simp only [State.hasRoom, decide_eq_true_eq] at h'
  exact LinkController.endPosition_room h'

theorem State.offer_queued {s : State} {m : Msg} (hr : s.lc.queue.length < 8) (h1 : m.isPresence = false) (h2 : m.isStatus = false) :
    (s.offer m).queued m := by
  simp only [State.queued, State.offer]
  rw [LinkController.offer_enters _ _ hr (by simp only [List.any_eq_false]; intro e _; rw [coalesces_false h1 h2]; simp)]
  exact ⟨_, (enterQueue_mem _ _ _).mpr (Or.inl rfl), rfl⟩

theorem State.offerReply_replied {s : State} (hr : s.lc.queue.length < 8) (r k o v) : (s.offerReply r k o v).replied r k o v := by
  exact State.offer_queued hr rfl rfl

theorem State.refuse_refused {s : State} (hr : s.lc.queue.length < 8) (k p kind o) : (s.refuse k p kind o).refused k p kind o := by
  refine ⟨(requesterZone p).getD (Config.unstatedRequesterZone s.freeDraws), ?_, ?_⟩
  · intro c hc; simp [hc]
  · exact State.offerReply_replied hr _ _ _ _

theorem State.closePosition_refused {x : State} {k p kind o} (h : x.refused k p kind o) : x.closePosition.refused k p kind o := by
  obtain ⟨z, h1, h2⟩ := h
  exact ⟨z, h1, State.closePosition_queued rfl rfl h2⟩

theorem State.closePosition_cr (x : State) : x.closePosition.cr = { x.cr with statusDue := false } := rfl

theorem State.closePosition_pt (x : State) : x.closePosition.pt = { x.pt with presenceDue := false } := rfl

theorem Conditions.quiet_eq {c : Conditions} (h : c.statusDue = false) : ({ c with statusDue := false } : Conditions) = c := by cases c; simp_all

theorem State.onTake_pending {s : State} (f act) (h : ∀ b x : State, (act b x).pending = x.pending) : (s.onTake f act).pending = s.pending := by
  simp only [State.onTake]; split
  · simp [h]
  · rfl

theorem find_finRange {n} (P : Fin n → Bool) (i : Fin n) : (List.finRange n).find? P = some i ↔ P i = true ∧ ∀ k, k < i → P k = false := by
  rw [List.find?_eq_some_iff_getElem]
  refine and_congr_right fun _ => ?_
  simp only [List.getElem_finRange, List.length_finRange, Bool.not_eq_true', Fin.cast_mk]
  constructor
  · rintro ⟨a, ha, rfl, h⟩ k hk
    exact h k.val hk
  · intro h
    exact ⟨i.val, i.isLt, rfl, fun j hj => h ⟨j, by omega⟩ hj⟩

theorem LinkController.endPosition_noZoneState {lc : LinkController} {own f t v} (hz : ∀ e ∈ lc.queue, ∀ v, e.msg ≠ .zoneState v) : ∀ e ∈
    (lc.endPosition own f t v).queue, ∀ v, e.msg ≠ .zoneState v := by
  have stop : ∀ e ∈ lc.stopFlight.queue, ∀ v, e.msg ≠ .zoneState v := by
    rw [LinkController.stopFlight_queue]
    split
    · exact hz
    · intro e he v
      obtain ⟨y, hy, rfl⟩ := List.mem_map.mp he
      simp only [LinkController.landed]
      split
      · cases hd : lc.deferredFor (by assumption) with
        | none => exact hz y hy v
        | some d => intro h; simp at h; subst h; rename_i m _ _; cases m <;> simp [LinkController.deferredFor] at hd
      · exact hz y hy v
  simp only [LinkController.endPosition]
  split
  · rename_i ho
    obtain ⟨m, hm⟩ := LinkController.isOwnPosition_flight ho
    split
    · intro e he v
      simp only [LinkController.removeTaken_queue lc hm] at he
      split at he
      · rename_i d hd
        rcases (enterQueue_mem _ _ _).mp he with rfl | he
        · intro h; simp at h; subst h; cases m <;> simp [LinkController.deferredFor] at hd
        · exact hz e (List.mem_filter.mp he).1 v
      · exact hz e (List.mem_filter.mp he).1 v
    · exact stop
  · exact stop

theorem LinkController.offer_zoneState {lc : LinkController} {m : Msg} (hm : ∀ v, m ≠ .zoneState v) (h : m.cls ≠ 0) {v : Vector ZoneRecord 4} :
    (∃ e ∈ (lc.offer m).queue, e.msg = .zoneState v) ↔ ∃ e ∈ lc.queue, e.msg = .zoneState v := by
  constructor
  · rintro ⟨e, he, hv⟩
    simp only [LinkController.offer] at he
    split at he
    · split at he
      · refine ⟨e, ?_, hv⟩; cases m <;> exact he
      · obtain ⟨x, hx, rfl⟩ := List.mem_map.mp he
        split at hv
        · exact absurd hv (hm v)
        · exact ⟨x, hx, hv⟩
    · split at he
      · rcases (enterQueue_mem _ _ _).mp he with rfl | he
        · exact absurd hv (hm v)
        · exact ⟨e, he, hv⟩
      · simp only [beq_iff_eq, h, if_false] at he; exact ⟨e, he, hv⟩
  · intro hx
    exact LinkController.offer_keeps h rfl rfl hx

theorem State.closePosition_zoneState (x : State) (v) : x.closePosition.queued (.zoneState v) ↔ x.queued (.zoneState v) := by
  rw [State.queued, State.closePosition, LinkController.openPosition_mem, State.queued]
  simp only [State.closeEvent]
  split <;> split
  · rw [LinkController.offer_zoneState (by simp) (by simp [Msg.cls]), LinkController.offer_zoneState (by simp) (by simp [Msg.cls])]
  · rw [LinkController.offer_zoneState (by simp) (by simp [Msg.cls])]
  · rw [LinkController.offer_zoneState (by simp) (by simp [Msg.cls])]
  · rfl

end Sys2Proof.Machine
end

