-- ==== Sys2Proof/Laws/Modes.lean ====
section
/-! SUPPORT. Laws of the station mode: which mode a re-derivation gives, what standby leaves, and the outputs and clock of a cut and of a round begin. -/

namespace Sys2Proof.Machine

theorem State.changeMode_mode (s : State) (m : Mode) : (s.changeMode m).pt.mode = m := by
  simp only [State.changeMode]
  split
  · simp_all
  · simp

theorem State.rederiveMode_mode {s : State} (h : s.joined = true) (h2 : s.pt.mode ≠ .joining) : s.rederiveMode.pt.mode = s.derivedMode := by
  simp [State.rederiveMode, h, h2, State.changeMode_mode]

theorem State.derivedMode_congr {s t : State} (h1 : t.zt = s.zt) (h2 : t.cl = s.cl) (h3 : t.st = s.st) : t.derivedMode = s.derivedMode := by
  simp [State.derivedMode, State.ownRecord, State.ownZone, State.anyDemand, State.demanded, State.hasSource, State.ownStream, State.own, h1, h2, h3]

/-- what handRecords does to the mode -/
theorem State.handRecords_mode {s : State} (r : ZoneRecord) (h : s.joined = true) (h2 : s.pt.mode ≠ .joining) :
    (s.handRecords r).pt.mode = s.derivedMode := by
  have key : ∀ x : State, x.joined = s.joined → x.pt.mode = s.pt.mode → x.zt = s.zt → x.cl = s.cl → x.st = s.st →
      x.rederiveMode.evalGo.pt.mode = s.derivedMode := by
    intro x a b c d e
    rw [← State.derivedMode_congr c d e]
    simpa using State.rederiveMode_mode (by rw [a, h]) (by rw [b]; exact h2)
  simp only [State.handRecords]
  apply key <;> (split <;> simp [State.joined, State.inReset])

theorem Tuner.list_setList (tb : Tuner) (b other : Band) (l : StationList) : (tb.setList b l).list other = if other = b then l else tb.list other := by
  cases b <;> cases other <;> rfl

@[simp] theorem Tuner.setList_rest (tb : Tuner) (b : Band) (l : StationList) : (tb.setList b l).op = tb.op ∧ (tb.setList b l).band = tb.band ∧
    (tb.setList b l).freq = tb.freq ∧ (tb.setList b l).state = tb.state ∧ (tb.setList b l).holders = tb.holders ∧
    (tb.setList b l).level = tb.level ∧ (tb.setList b l).offset = tb.offset ∧ (tb.setList b l).unheld = tb.unheld := by
  cases b <;> simp [Tuner.setList]

@[simp] theorem Tuner.leaveScan_rest (tb : Tuner) (op : Operation) : (tb.leaveScan op).op = tb.op ∧ (tb.leaveScan op).band = tb.band ∧
    (tb.leaveScan op).freq = tb.freq ∧ (tb.leaveScan op).state = tb.state ∧ (tb.leaveScan op).holders = tb.holders := by
  simp only [Tuner.leaveScan]; split <;> simp

theorem Tuner.leaveScan_list {tb : Tuner} {op : Operation} (h : tb.op = some op) (b : Band) : (tb.leaveScan op).list b = tb.listAborted b := by
  simp only [Tuner.leaveScan, Tuner.listAborted, Tuner.scans, h, Option.any_some]
  cases hk : op.kind == OpKind.scan
  · simp
  · simp only [if_true, Tuner.list_setList, Bool.true_and]
    by_cases hb : b = op.band
    · subst hb; simp
    · have : (op.band == b) = false := by simpa using fun e => hb e.symm
      simp [hb, this]

theorem State.abortOperation_tb (s : State) : s.abortOperation.tb.op = none ∧ s.abortOperation.tb.band = s.tb.band ∧ s.abortOperation.tb.freq =
    s.tb.freq ∧ s.abortOperation.tb.holders = s.tb.holders ∧ s.abortOperation.tb.state = s.tb.state ∧
    ∀ b, s.abortOperation.tb.list b = s.tb.listAborted b := by
  simp only [State.abortOperation]
  cases ho : s.tb.op with
  | none => simp [ho, Tuner.listAborted, Tuner.scans]
  | some op =>
    have key := Tuner.leaveScan_list ho
    have hl : ∀ (t : Tuner) (b : Band), ({ t with op := none, unheld := 0 } : Tuner).list b = t.list b := by intro t b; cases b <;> rfl
    dsimp only
    split <;> refine ⟨rfl, ?_, ?_, ?_, ?_, fun b => (hl (s.tb.leaveScan op) b).trans (key b)⟩ <;> simp [State.endOperation, State.setTuner]

theorem State.evalGo_off (s : State) (n : OutputNo) (h : s.om.outputs[n].state = .off) : s.evalGo.om.outputs[n] = s.om.outputs[n] := by
  simp only [State.evalGo, State.mapOutputs, ofFn_getElem, OutputRecord.evaluate, h]

theorem State.checkDecoder_off (s : State) (h : s.isActive = false) : s.checkDecoder.pd.state = .off := by
  simp only [State.checkDecoder, State.rebuildIf_frame, State.decoderRuns, h, Bool.and_false, Bool.false_and, Bool.not_false, Bool.true_and, bne_iff_ne, ne_eq]
  by_cases hh : s.pd.state = .off
  · simp [hh]
  · simp [hh, Decoder.reset]

theorem State.switchIfDown_off (s : State) (h : s.isActive = false) (h2 : s.pd.state = .off) : s.switchIfDown.pd.state = .off := by
  simp only [State.switchIfDown]
  split
  · split
    · exact h2
    · simp only [State.switchTo, State.rebuild_frame]
      apply State.checkDecoder_off
      exact h
  · exact h2

theorem State.putInput_ir (s : State) (id r) : (s.putInput id r).ir =
    s.ir.set id { r with changed := (s.ir.get id).changed || r.state != (s.ir.get id).state, history := r.historyAfter (s.ir.get id) } := by
  simp only [State.putInput, State.followKind_frame, State.announceIf_frame]

theorem set_getElem {n} (v : Vector OutputRecord n) (i j : Fin n) (x) : (v.set i x)[j] = if i = j then x else v[j] := by
  by_cases h : i = j
  · subst h; simp
  · have : ¬ i.val = j.val := fun e => h (Fin.ext e)
    simp [this, h]

theorem State.standbyOutput_om (s : State) (n) : (s.standbyOutput n).om.outputs = s.om.outputs.set n (s.om.outputs[n]).toOff := by
  simp [State.standbyOutput, State.setOutput]

theorem State.standbyOutput_holds (s : State) (n j) : (s.standbyOutput n).cr.holds (.outputFaulted j) = if n = j then false else s.cr.holds
    (.outputFaulted j) := by
  simp only [State.standbyOutput, State.announceIf_frame, State.setCondition]
  split
  · rename_i h; subst h; exact Conditions.put_holds _ _ _
  · rename_i h; exact Conditions.put_holds_ne _ _ _ _ (by simpa using fun e => h e.symm)

/-- what standby means -/
structure Asleep (s t : State) : Prop where
  outs : ∀ n : OutputNo, t.om.outputs[n].state = .off ∧ t.om.outputs[n].enabled = false ∧ t.om.outputs[n].ramp = 0
            ∧ t.om.outputs[n].recovery = 0 ∧ t.om.outputs[n].overload = s.om.outputs[n].overload
  flt : ∀ n, t.cr.holds (.outputFaulted n) = false
  ia : t.ir.recA.state = .noSignal
  ib : t.ir.recB.state = .noSignal
  pd : t.pd.state = .off
  tb : t.tb.state = .off ∧ t.tb.op = none ∧ t.tb.band = s.tb.band ∧ t.tb.freq = s.tb.freq
          ∧ ∀ b, t.tb.list b = s.tb.listAborted b
  rt : t.rt.takeover = .stopped ∧ t.rt.isSender = false

theorem State.enterMode_asleep (s : State) (old) (hm : s.pt.mode = .standby) : Asleep s (s.enterMode old) := by
  simp only [State.enterMode, hm]
  generalize hx : ({ (s.eachOutput State.standbyOutput) with rt := s.rt.sleep } : State) = x
  have ho : ∀ n : OutputNo, x.om.outputs[n] = (s.om.outputs[n]).toOff := by
    intro n; rw [← hx]
    simp only [State.eachOutput, State.standbyOutput_om]
    fin_cases n <;> simp
  have hc : ∀ n, x.cr.holds (.outputFaulted n) = false := by
    intro n; rw [← hx]
    simp only [State.eachOutput, State.standbyOutput_holds]
    fin_cases n <;> simp
  have hact : x.isActive = false := by
    rw [← hx]; simp [State.isActive, State.eachOutput, hm]
  have htb : x.tb = s.tb := by rw [← hx]; simp [State.eachOutput]
  have hrt : x.rt = s.rt.sleep := by rw [← hx]
  clear hx
  have hom : ((((x.unpowerInput .a).unpowerInput .b).checkDecoder).stopTuner).switchIfDown.om = x.om := by simp
  constructor
  · intro n
    have : ((((x.unpowerInput .a).unpowerInput .b).checkDecoder).stopTuner).switchIfDown.evalGo.om.outputs[n] = (s.om.outputs[n]).toOff := by
      rw [State.evalGo_off]
      · rw [hom]; exact ho n
      · rw [hom, ho n]; rfl
    rw [this]; simp [OutputRecord.toOff]
  · intro n
    simp only [State.evalGo_frame]
    rw [State.switchIfDown_holds _ _ (by simp) (by simp)]
    simp only [State.stopTuner_frame]
    rw [State.checkDecoder_holds _ _ (by simp)]
    simp only [State.unpowerInput]
    rw [State.putInput_holds _ _ _ _ (by simp) (by simp), State.putInput_holds _ _ _ _ (by simp) (by simp)]
    exact hc n
  · simp [State.unpowerInput, State.putInput_ir, Inputs.set, InputRecord.reset]
  · simp [State.unpowerInput, State.putInput_ir, Inputs.set, InputRecord.reset]
  · simp only [State.evalGo_frame]
    apply State.switchIfDown_off
    · simpa [State.isActive] using hact
    · simp only [State.stopTuner_frame]
      apply State.checkDecoder_off
      simpa [State.isActive] using hact
  · simp only [State.evalGo_frame, State.switchIfDown_frame, State.stopTuner, State.setTuner]
    have hl : ∀ (t : Tuner) (b : Band), t.toOff.list b = t.list b := by intro t b; cases b <;> rfl
    have hs := State.abortOperation_tb ((x.unpowerInput .a).unpowerInput .b).checkDecoder
    refine ⟨rfl, hs.1, ?_, ?_, fun b => ?_⟩
    · simpa [htb, Tuner.toOff] using hs.2.1
    · simpa [htb, Tuner.toOff] using hs.2.2.1
    · rw [hl, hs.2.2.2.2.2]; simp [htb]
  · simp [hrt, RoundTimer.sleep]

theorem Asleep.of {s s' t t' : State} (h : Asleep s' t') (h1 : ∀ n : OutputNo, s'.om.outputs[n].overload = s.om.outputs[n].overload) (h2 :
    s'.tb.band = s.tb.band ∧ s'.tb.freq = s.tb.freq ∧ ∀ b, s'.tb.listAborted b = s.tb.listAborted b)
   (e1 : t.om = t'.om) (e2 : t.cr.held = t'.cr.held) (e3 : t.ir = t'.ir) (e4 : t.pd = t'.pd) (e5 : t.tb = t'.tb) (e6 : t.rt = t'.rt) :
     Asleep s t := by
  obtain ⟨a,b,c,d,e,f,g⟩ := h
  constructor
  · intro n; rw [e1]; have := a n; rw [h1 n] at this; exact this
  · intro n; have := b n; simp only [Conditions.holds] at this ⊢; rw [e2]; exact this
  · rw [e3]; exact c
  · rw [e3]; exact d
  · rw [e4]; exact e
  · rw [e5]; rw [h2.1, h2.2.1] at f; exact ⟨f.1, f.2.1, f.2.2.1, f.2.2.2.1, fun b => (f.2.2.2.2 b).trans (h2.2.2 b)⟩
  · rw [e6]; exact g

theorem State.rederiveMode_asleep (s : State) (h : s.joined = true) (h1 : s.pt.mode ≠ .joining) (h2 : s.pt.mode ≠ .standby) (h3 :
    s.rederiveMode.pt.mode = .standby) : Asleep s s.rederiveMode := by
  have hd := State.rederiveMode_mode h h1
  rw [h3] at hd
  have : s.rederiveMode = ({ s with pt := { s.pt with mode := .standby } }.announce).enterMode s.pt.mode := by
    simp [State.rederiveMode, h, h1, State.changeMode, ← hd, h2]
  rw [this]
  have := State.enterMode_asleep (({ s with pt := { s.pt with mode := .standby } }.announce)) s.pt.mode rfl
  exact this.of (fun n => rfl) ⟨rfl, rfl, fun _ => rfl⟩ rfl rfl rfl rfl rfl rfl

theorem State.moveHolder_tb (s : State) (z a b) : (s.moveHolder z a b).tb.band = s.tb.band ∧ (s.moveHolder z a b).tb.freq = s.tb.freq ∧
    (s.moveHolder z a b).tb.op = s.tb.op ∧ ∀ x, (s.moveHolder z a b).tb.listAborted x = s.tb.listAborted x := by
  have hl : ∀ (t u : Tuner) (x : Band), t.op = u.op → t.fmList = u.fmList → t.amList = u.amList → t.listAborted x = u.listAborted x := by
    intro t u x h1 h2 h3; cases x <;> simp [Tuner.listAborted, Tuner.list, Tuner.scans, h1, h2, h3]
  simp only [State.moveHolder, State.setHolders]
  (repeat' split) <;> refine ⟨rfl, rfl, rfl, fun x => hl _ _ x rfl rfl rfl⟩

theorem State.rederiveMode_sr (s : State) (h : s.sr.target = none) : s.rederiveMode.sr = s.sr := by
  have sw : ∀ x : State, x.sr = s.sr → x.switchIfDown.sr = s.sr := by
    intro x hx; simp [State.switchIfDown, hx, h]
  simp only [State.rederiveMode, State.changeMode]
  split
  · split
    · rfl
    · simp only [State.enterMode, State.eachOutput]
      (repeat' split) <;> simp [State.wake]
      apply sw
      simp
  · rfl

theorem State.afterTableLoss_sr (s : State) (f) (h : s.sr.target = none) : (s.afterTableLoss f).sr = s.sr := by
  simp only [State.afterTableLoss]; split
  · rw [State.rederiveMode_sr]
    · simp
    · simpa using h
  · simp

theorem State.cut_silent (s : State) (n : OutputNo) (hg : s.rt.discipline ≠ .locked) : (s.cut.om.outputs[n]).state.sounding = false := by
  have hg' : ∀ n, (s.mapOutputs fun x o => o.cut s.isActive).goStart n = false := by
    intro n; simp [State.goStart, hg]
  simp only [State.cut, State.evalGo]
  generalize hc : (s.mapOutputs fun x o => o.cut s.isActive).goContinue n = c
  simp only [State.mapOutputs, ofFn_getElem] at hg' hc ⊢
  rw [hg', hc]
  simp only [OutputRecord.cut, OutputRecord.toRest]
  generalize s.om.outputs[n] = o
  rcases o with ⟨rs,st,rm,at',ov,de,re,wi,en⟩
  cases st <;> cases s.isActive <;> simp [OutState.sounding, OutputRecord.evaluate, OutputRecord.toOff, OutputRecord.toSilent]

theorem RoundTimer.SameClock.fields (a b : RoundTimer) (h : a.SameClock b) : b.counter = a.counter ∧ b.prevCapture = a.prevCapture ∧
    b.roundNumber = a.roundNumber ∧ b.currentSender = a.currentSender ∧ b.outgoing = a.outgoing ∧ b.adoptedD = a.adoptedD ∧ b.discipline =
    a.discipline ∧ b.goodRun = a.goodRun ∧ b.holdover = a.holdover ∧ b.trim = a.trim ∧ b.roundBegun = a.roundBegun ∧ b.holdoverFresh =
    a.holdoverFresh ∧ b.lostAsSender = a.lostAsSender := by
  unfold RoundTimer.SameClock at h; rw [h]; simp

/-- An event that stands for a step of the coming round begin is that event with another mix matrix before it and after it. -/
theorem State.atRoundBegin_eq (s : State) (act : State → State) : ∃ before after, s.atRoundBegin act =
    { act { s with mm := before } with mm := after } := by
  simp only [State.atRoundBegin]
  split
  · exact ⟨s.mm, (act s).mm, rfl⟩
  · split
    · exact ⟨_, _, rfl⟩
    · exact ⟨_, _, rfl⟩

/-- An event that rebuilds nothing leaves the matrices as they stood, with the frame that it leaves (R121). -/
theorem State.atRoundBegin_keeps {s : State} {act : State → State} (h : ∀ x, (act x).mm.dirty = x.mm.dirty)
    (h2 : s.mm.swapped = false) : ∃ before, s.atRoundBegin act = { act { s with mm := before } with mm := { s.mm with frame :=
      (act { s with mm := before }).mm.frame } } := by
  refine ⟨{ s.mm.exchange with swapped := true }, ?_⟩
  simp only [State.atRoundBegin, h2, h]
  simp [MixMatrix.exchange]

theorem State.peerRound_entries (s : State) : s.peerRound.pt.entries = ageEntries s.pt.entries := by
  simp only [State.peerRound]; split <;> simp

theorem exec_roundBegin {s : State} (r) (h : s.joined = true) : exec (.roundBegin r) s = .next (s.roundBegin r).closeEvent := by
  simp [exec, execRoundBegin, h]

theorem State.roundBegin_discipline (s : State) (r : RoundBegin) :
  (s.roundBegin r).closeEvent.rt.discipline = (s.rt.disciplineStep (s.markError r)).discipline ∧
  (s.roundBegin r).closeEvent.rt.goodRun = (s.rt.disciplineStep (s.markError r)).goodRun ∧
  (s.roundBegin r).closeEvent.rt.holdover = (s.rt.disciplineStep (s.markError r)).holdover := by
  simp only [State.closeEvent_frame, RoundTimer.SameClock.fields _ _ (s.roundBegin_clock r)]
  simp [RoundTimer.hear, State.markError]

theorem exec_takeoverTimerExpiry {s : State} (h : s.timerRuns = true) (link) : exec (.takeoverTimerExpiry link) s =
   .next (if markCompletes s.own link = true then { s with
        rt := { s.rt.expiryStep with outgoing := some (s.markToSend false), isSender := true, takeover := .stopped } }.evalGo.closeEvent else s) := by
  simp only [State.timerRuns] at h
  simp [exec, execTakeoverTimerExpiry, h]

end Sys2Proof.Machine
end

