-- ==== Sys2Proof/WellFormed.lean ====
section
/-! DEFINITION. The bounds that the manual puts on what a command brings. The meanings are total: an ill-formed command has a meaning
too, but no part of the manual says that it can occur. -/

namespace Sys2Proof

/-- A round mark's body is five bytes (13.2). -/
def RoundBegin.wf (r : RoundBegin) : Bool := r.body.length == 5

/-- A taken message has at most 24 payload bytes: a longer body is voided (R22). -/
def payloadWf (payload : List Byte) : Bool := payload.length ≤ 24

/-- The class of the arbitration field is that of the kind in a message of a known kind; an unknown kind carries a code that names no kind, or a
class that is not its kind's (R31, R192). A slot is 149 bytes, a packed block 69 to 496 bytes, a void is of a received body of any length. -/
def Instr.wf : Instr → Bool
  | .roundBegin r => r.wf
  | .claim _ p | .release _ p | .zoneSet _ p | .zoneState _ p | .roleMap _ p | .tune _ p | .seek _ p | .scan _ p
  | .presetRecall _ p | .presetStore _ p | .presetClear _ p | .presetRead _ p | .listRead _ p | .statusQuery _ p
  | .presence _ p | .reply _ p | .listPage _ p | .presetData _ p | .status _ p => payloadWf p
  | .slotEnd _ heard => heard.length == 149
  | .blockCompletion _ block => 69 ≤ block.length && block.length ≤ 496
  | .imageRead image => image.length ≤ 30
  | .unknownKind field code => Machine.classOfKind code != some field.cls.toNat
  | .senderMarkDue _ | .takeoverTimerExpiry _ | .holdoverExpiry | .messageVoided _ _ | .slotExpiry _
  | .watchdogExpiry | .peerAbsence _ | .rampUpComplete _ | .rampDownComplete _ | .outputFault _ _ | .faultRecoveryEnd _
  | .overloadDecay _ | .supplyMoveToLow | .supplyMoveToNormal | .muteLineAssert | .muteLineRelease | .clockGained _ | .clockLost _
  | .acquiringEnd _ | .syncPattern _ _ | .syncLost _ | .settleEnd | .gateClose _ _ | .unheldTimeout | .readSuspendDelayEnd
  | .readComplete | .programmingCommit | .supersedingEnd | .erasingEnd | .copyingEnd | .headerEnd | .reset _ | .leaveReset _ _
  | .recoveryEnd | .joinStart | .joinWindowEnd | .carrierBoundary => true

end Sys2Proof
end

