-- ==== Sys2Proof/Laws/PerInstr.lean ====
section
/-! SUPPORT. The family Wire: the payload of a well-formed message, sent in a body with its kind, length and check word, is voided by no
station (R22, 13.2). -/

namespace Sys2Proof

/-- The payload of a taken message. -/
def Instr.payload : Instr → Option (List Byte)
  | .claim _ p | .release _ p | .zoneSet _ p | .zoneState _ p | .roleMap _ p | .tune _ p | .seek _ p | .scan _ p | .presetRecall _ p | .presetStore _ p
  | .presetClear _ p | .presetRead _ p | .listRead _ p | .statusQuery _ p | .presence _ p | .reply _ p | .listPage _ p | .presetData _ p | .status _ p => some p
  | .roundBegin _ | .senderMarkDue _ | .takeoverTimerExpiry _ | .holdoverExpiry | .messageVoided _ _ | .unknownKind _ _ | .slotEnd _ _
  | .slotExpiry _ | .watchdogExpiry | .peerAbsence _ | .rampUpComplete _ | .rampDownComplete _ | .outputFault _ _
  | .faultRecoveryEnd _ | .overloadDecay _ | .supplyMoveToLow | .supplyMoveToNormal | .muteLineAssert | .muteLineRelease
  | .clockGained _ | .clockLost _ | .acquiringEnd _ | .syncPattern _ _ | .syncLost _ | .blockCompletion _ _ | .settleEnd
  | .gateClose _ _ | .unheldTimeout | .readSuspendDelayEnd | .readComplete | .programmingCommit | .supersedingEnd | .erasingEnd
  | .copyingEnd | .headerEnd | .reset _ | .leaveReset _ _ | .imageRead _ | .recoveryEnd | .joinStart | .joinWindowEnd
  | .carrierBoundary => none

namespace Laws.Wire

open Sys2Proof.Machine

/-- The body of a message of any kind with the payload of i is not void. -/
def Statement (i : Instr) : Prop :=
  i.wf = true → ∀ p, i.payload = some p → ∀ kind : Byte, bodyIsVoid (withCheck (kind :: BitVec.ofNat 8 p.length :: p)) = false

/-- A body ends in its own check word. -/
theorem withCheck_agrees (bytes : List Byte) : checkAgrees (withCheck bytes) = true := by
  simp [checkAgrees, withCheck, bytes16]

/-- A body of a payload of at most 24 bytes is not void. -/
theorem body_sound {p : List Byte} (h : p.length ≤ 24) (kind : Byte) :
    bodyIsVoid (withCheck (kind :: BitVec.ofNat 8 p.length :: p)) = false := by
  have hl : (BitVec.ofNat 8 p.length).toNat = p.length := by
    rw [BitVec.toNat_ofNat]; omega
  have hc := withCheck_agrees (kind :: BitVec.ofNat 8 p.length :: p)
  simp only [withCheck, List.cons_append] at hc ⊢
  rw [bodyIsVoid, hl, hc]
  simp [bytes16, h]

/-- The one case that all messages share. -/
theorem message {i : Instr} {p : List Byte} (hp : i.payload = some p) (hw : i.wf = true → p.length ≤ 24) : Statement i := by
  intro h q hq kind
  rw [hp] at hq
  obtain rfl := Option.some.inj hq
  exact body_sound (hw h) kind

theorem roundBegin (r : RoundBegin) : Statement (.roundBegin r) := by
  intro _ _ h
  simp [Instr.payload] at h

theorem senderMarkDue (link : LinkAtSend) : Statement (.senderMarkDue link) := by
  intro _ _ h
  simp [Instr.payload] at h

theorem takeoverTimerExpiry (link : LinkAtSend) : Statement (.takeoverTimerExpiry link) := by
  intro _ _ h
  simp [Instr.payload] at h

theorem holdoverExpiry : Statement .holdoverExpiry := by
  intro _ _ h
  simp [Instr.payload] at h

theorem messageVoided (field : ArbField) (received : List Byte) : Statement (.messageVoided field received) := by
  intro _ _ h
  simp [Instr.payload] at h

theorem claim (sender : Station) (payload : List Byte) : Statement (.claim sender payload) := message rfl (by simp [Instr.wf, payloadWf])

theorem release (sender : Station) (payload : List Byte) : Statement (.release sender payload) := message rfl (by simp [Instr.wf, payloadWf])

theorem zoneSet (sender : Station) (payload : List Byte) : Statement (.zoneSet sender payload) := message rfl (by simp [Instr.wf, payloadWf])

theorem zoneState (sender : Station) (payload : List Byte) : Statement (.zoneState sender payload) := message rfl (by simp [Instr.wf, payloadWf])

theorem roleMap (sender : Station) (payload : List Byte) : Statement (.roleMap sender payload) := message rfl (by simp [Instr.wf, payloadWf])

theorem tune (sender : Station) (payload : List Byte) : Statement (.tune sender payload) := message rfl (by simp [Instr.wf, payloadWf])

theorem seek (sender : Station) (payload : List Byte) : Statement (.seek sender payload) := message rfl (by simp [Instr.wf, payloadWf])

theorem scan (sender : Station) (payload : List Byte) : Statement (.scan sender payload) := message rfl (by simp [Instr.wf, payloadWf])

theorem presetRecall (sender : Station) (payload : List Byte) : Statement (.presetRecall sender payload) := message rfl (by simp [Instr.wf, payloadWf])

theorem presetStore (sender : Station) (payload : List Byte) : Statement (.presetStore sender payload) := message rfl (by simp [Instr.wf, payloadWf])

theorem presetClear (sender : Station) (payload : List Byte) : Statement (.presetClear sender payload) := message rfl (by simp [Instr.wf, payloadWf])

theorem presetRead (sender : Station) (payload : List Byte) : Statement (.presetRead sender payload) := message rfl (by simp [Instr.wf, payloadWf])

theorem listRead (sender : Station) (payload : List Byte) : Statement (.listRead sender payload) := message rfl (by simp [Instr.wf, payloadWf])

theorem statusQuery (sender : Station) (payload : List Byte) : Statement (.statusQuery sender payload) := message rfl (by simp [Instr.wf, payloadWf])

theorem presence (sender : Station) (payload : List Byte) : Statement (.presence sender payload) := message rfl (by simp [Instr.wf, payloadWf])

theorem reply (sender : Station) (payload : List Byte) : Statement (.reply sender payload) := message rfl (by simp [Instr.wf, payloadWf])

theorem listPage (sender : Station) (payload : List Byte) : Statement (.listPage sender payload) := message rfl (by simp [Instr.wf, payloadWf])

theorem presetData (sender : Station) (payload : List Byte) : Statement (.presetData sender payload) := message rfl (by simp [Instr.wf, payloadWf])

theorem status (sender : Station) (payload : List Byte) : Statement (.status sender payload) := message rfl (by simp [Instr.wf, payloadWf])

theorem unknownKind (field : ArbField) (code : BitVec 5) : Statement (.unknownKind field code) := by
  intro _ _ h
  simp [Instr.payload] at h

theorem slotEnd (slot : SlotNo) (heard : List Byte) : Statement (.slotEnd slot heard) := by
  intro _ _ h
  simp [Instr.payload] at h

theorem slotExpiry (slot : SlotNo) : Statement (.slotExpiry slot) := by
  intro _ _ h
  simp [Instr.payload] at h

theorem watchdogExpiry : Statement .watchdogExpiry := by
  intro _ _ h
  simp [Instr.payload] at h

theorem peerAbsence (station : Station) : Statement (.peerAbsence station) := by
  intro _ _ h
  simp [Instr.payload] at h

theorem rampUpComplete (output : OutputNo) : Statement (.rampUpComplete output) := by
  intro _ _ h
  simp [Instr.payload] at h

theorem rampDownComplete (output : OutputNo) : Statement (.rampDownComplete output) := by
  intro _ _ h
  simp [Instr.payload] at h

theorem outputFault (output : OutputNo) (edge : FaultEdge) : Statement (.outputFault output edge) := by
  intro _ _ h
  simp [Instr.payload] at h

theorem faultRecoveryEnd (output : OutputNo) : Statement (.faultRecoveryEnd output) := by
  intro _ _ h
  simp [Instr.payload] at h

theorem overloadDecay (output : OutputNo) : Statement (.overloadDecay output) := by
  intro _ _ h
  simp [Instr.payload] at h

theorem supplyMoveToLow : Statement .supplyMoveToLow := by
  intro _ _ h
  simp [Instr.payload] at h

theorem supplyMoveToNormal : Statement .supplyMoveToNormal := by
  intro _ _ h
  simp [Instr.payload] at h

theorem muteLineAssert : Statement .muteLineAssert := by
  intro _ _ h
  simp [Instr.payload] at h

theorem muteLineRelease : Statement .muteLineRelease := by
  intro _ _ h
  simp [Instr.payload] at h

theorem clockGained (input : InputId) : Statement (.clockGained input) := by
  intro _ _ h
  simp [Instr.payload] at h

theorem clockLost (input : InputId) : Statement (.clockLost input) := by
  intro _ _ h
  simp [Instr.payload] at h

theorem acquiringEnd (input : InputId) : Statement (.acquiringEnd input) := by
  intro _ _ h
  simp [Instr.payload] at h

theorem syncPattern (input : InputId) (counter : Byte) : Statement (.syncPattern input counter) := by
  intro _ _ h
  simp [Instr.payload] at h

theorem syncLost (input : InputId) : Statement (.syncLost input) := by
  intro _ _ h
  simp [Instr.payload] at h

theorem blockCompletion (input : InputId) (block : List Byte) : Statement (.blockCompletion input block) := by
  intro _ _ h
  simp [Instr.payload] at h

theorem settleEnd : Statement .settleEnd := by
  intro _ _ h
  simp [Instr.payload] at h

theorem gateClose (elapsed : Nat) (frontEnd : FrontEnd) : Statement (.gateClose elapsed frontEnd) := by
  intro _ _ h
  simp [Instr.payload] at h

theorem unheldTimeout : Statement .unheldTimeout := by
  intro _ _ h
  simp [Instr.payload] at h

theorem readSuspendDelayEnd : Statement .readSuspendDelayEnd := by
  intro _ _ h
  simp [Instr.payload] at h

theorem readComplete : Statement .readComplete := by
  intro _ _ h
  simp [Instr.payload] at h

theorem programmingCommit : Statement .programmingCommit := by
  intro _ _ h
  simp [Instr.payload] at h

theorem supersedingEnd : Statement .supersedingEnd := by
  intro _ _ h
  simp [Instr.payload] at h

theorem erasingEnd : Statement .erasingEnd := by
  intro _ _ h
  simp [Instr.payload] at h

theorem copyingEnd : Statement .copyingEnd := by
  intro _ _ h
  simp [Instr.payload] at h

theorem headerEnd : Statement .headerEnd := by
  intro _ _ h
  simp [Instr.payload] at h

theorem reset (cause : ResetCause) : Statement (.reset cause) := by
  intro _ _ h
  simp [Instr.payload] at h

theorem leaveReset (cause : ResetCause) (straps : Station) : Statement (.leaveReset cause straps) := by
  intro _ _ h
  simp [Instr.payload] at h

theorem imageRead (image : List Byte) : Statement (.imageRead image) := by
  intro _ _ h
  simp [Instr.payload] at h

theorem recoveryEnd : Statement .recoveryEnd := by
  intro _ _ h
  simp [Instr.payload] at h

theorem joinStart : Statement .joinStart := by
  intro _ _ h
  simp [Instr.payload] at h

theorem joinWindowEnd : Statement .joinWindowEnd := by
  intro _ _ h
  simp [Instr.payload] at h

theorem carrierBoundary : Statement .carrierBoundary := by
  intro _ _ h
  simp [Instr.payload] at h

end Laws.Wire

end Sys2Proof
end

