-- ==== Sys2Proof/Laws/Receiver.lean ====
section
/-! SUPPORT. Laws of the stream receiver: what a presentation leaves, which receiver a round begin leaves, and the lead; with the small laws of a
round that ended before a step of the coming round begin. -/

namespace Sys2Proof.Machine

/-! ## The round as it ended (the log's row 1) -/

@[simp] theorem InputRecord.ahead_ended (r : InputRecord) (f) : (r.ahead f).ended = some r.atEnd := rfl
@[simp] theorem InputRecord.ahead_atEnd (r : InputRecord) (f) : (r.ahead f).atEnd = r.atEnd := rfl
@[simp] theorem InputRecord.ahead_rest (r : InputRecord) (f) : (r.ahead f).state = (f r).state ∧ (r.ahead f).rateClass = (f r).rateClass ∧
    (r.ahead f).steady = (f r).steady ∧ (r.ahead f).lastCounter = (f r).lastCounter ∧ (r.ahead f).syncRun = (f r).syncRun ∧
    (r.ahead f).withoutSync = (f r).withoutSync ∧ (r.ahead f).blocks = (f r).blocks ∧ (r.ahead f).inProgress = (f r).inProgress ∧
    (r.ahead f).history = (f r).history ∧ (r.ahead f).patternSeen = (f r).patternSeen ∧ (r.ahead f).changed = (f r).changed ∧
    (r.ahead f).clockGap = (f r).clockGap := ⟨rfl, rfl, rfl, rfl, rfl, rfl, rfl, rfl, rfl, rfl, rfl, rfl⟩

/-- A record that no step was made ahead of ends the round as it stands. -/
theorem InputRecord.atEnd_none {r : InputRecord} (h : r.ended = none) : r.atEnd = { state := r.state, blocks := r.blocks } := by
  simp [InputRecord.atEnd, h]

@[simp] theorem Tuner.ahead_rest (tb : Tuner) : tb.ahead.ended = some tb.atEnd ∧ tb.ahead.state = tb.state ∧ tb.ahead.band = tb.band ∧
    tb.ahead.freq = tb.freq ∧ tb.ahead.op = tb.op ∧ tb.ahead.holders = tb.holders ∧ tb.ahead.level = tb.level ∧
    tb.ahead.offset = tb.offset ∧ tb.ahead.pilot = tb.pilot ∧ tb.ahead.unheld = tb.unheld :=
  ⟨rfl, rfl, rfl, rfl, rfl, rfl, rfl, rfl, rfl, rfl⟩

/-! ## The lead (R69, R71) -/

@[simp] theorem Receiver.leadAfter_none {sr : Receiver} (h : sr.lead = none) (m : RoundNo) : sr.leadAfter m = none := by
  simp [Receiver.leadAfter, h]

/-- A lead left by a write has its entry in the ring. -/
theorem Receiver.leadAfter_received {sr : Receiver} {m r : RoundNo} (h : sr.leadAfter m = some r) : (sr.entryFor r).received = true := by
  simp only [Receiver.leadAfter, Option.bind_eq_some_iff] at h
  obtain ⟨x, -, hx⟩ := h
  split at hx
  · simp_all
  · split at hx
    · simp_all
    · simp at hx

/-! ## Presentation (R69 to R71) -/

@[simp] theorem State.silentFrame_sr (s : State) : s.silentFrame.sr = s.sr := rfl
@[simp] theorem State.silentFrame_mm (s : State) : s.silentFrame.mm.frame = Frame.silence := rfl
@[simp] theorem State.playPairs_sr (s : State) (p) : (s.playPairs p).sr = { s.sr with lastPairs := p } := rfl
@[simp] theorem State.decode_sr (s : State) (h) : (s.decode h).sr = s.sr := by simp [State.decode]

@[simp] theorem State.takeKind_sr (s : State) (k) : (s.takeKind k).sr = { s.sr with programKind := k } := by
  simp only [State.takeKind]
  split
  · rename_i h
    rw [← eq_of_beq h]
  · simp

/-- What the presentation of an entry received leaves of the receiver. -/
theorem State.presentReceived_sr (s : State) (e : RingEntry) : (s.presentReceived e).sr =
    { s.sr with
      watchdog := 0
      programKind := e.kind
      lastPairs := if e.kind = some .pcm2 then if e.status = .valid then pairsOf e else silentPairs else s.sr.lastPairs } := by
  rcases e with ⟨r, st, k, nb, d⟩
  simp only [State.presentReceived]
  cases k with
  | none => simp
  | some k => cases k <;> cases st <;> simp

/-- What a MISSING round leaves of the receiver. -/
theorem State.presentMissing_sr (s : State) : s.presentMissing.sr =
    { s.sr with lastPairs :=
        if s.sr.programKind = some .pcm2 then if s.sr.watchdog = 0 then s.sr.lastPairs else silentPairs else s.sr.lastPairs } := by
  simp only [State.presentMissing]
  split <;> rename_i hk <;> simp [hk]
  all_goals exact congrArg (fun k => { s.sr with programKind := k }) hk

@[simp] theorem State.fireWatchdog_sr (s : State) : s.fireWatchdog.sr = { s.sr with state := .lost, watchdog := 0 } := by
  simp only [State.fireWatchdog]
  split <;> simp

theorem State.countMissing_sr (s : State) : s.countMissing.sr =
    if s.cl.values.watchdogLimit ≤ s.sr.watchdog + 1 then { s.sr with state := .lost, watchdog := 0 }
    else { s.sr with watchdog := s.sr.watchdog + 1 } := by
  simp only [State.countMissing]
  split <;> simp

theorem State.presentRunning_target (s : State) (e : RingEntry) : (s.presentRunning e).sr.target = s.sr.target := by
  simp only [State.presentRunning]
  split
  · simp [State.presentReceived_sr]
  · rw [State.countMissing_sr]
    split <;> simp [State.presentMissing_sr]

theorem State.present_target (s : State) : s.present.sr.target = s.sr.target := by
  simp only [State.present]
  split
  · rfl
  · split
    · rfl
    · rfl
    · simp only [State.presentFilling]
      split
      · rw [State.presentRunning_target]; rfl
      · rfl
    · exact State.presentRunning_target _ _

theorem State.receiverRound_target (s : State) (d : Nat) : (s.receiverRound d).sr.target = s.sr.target := by
  simp only [State.receiverRound]
  split
  · exact s.present_target
  · simp only [State.silentFrame_sr, State.dropForD]
    split <;> simp

/-! ## The receiver through a round begin -/

theorem State.switchIfDown_none {s : State} (h : s.sr.target = none) : s.switchIfDown = s := by simp [State.switchIfDown, h]

theorem State.changeMode_sr {s : State} (h : s.sr.target = none) (m : Mode) : (s.changeMode m).sr = s.sr := by
  simp only [State.changeMode]
  split
  · rfl
  · simp only [State.enterMode, State.eachOutput]
    (repeat' split) <;> simp [State.wake]
    rw [State.switchIfDown_none] <;> simp [h]

theorem State.joinRound_sr {s : State} (h : s.sr.target = none) : s.joinRound.sr = s.sr := by
  simp only [State.joinRound, State.endWindow]
  (repeat' split) <;> simp [State.eachSource, State.changeMode_sr, State.closeWindow, h]

/-- The state that a round begin presents. -/
def State.beforePresentation (s : State) (r : RoundBegin) : State :=
  (((if r.rampOrder == .stepFirst then s.swapRound.rampStep else s.swapRound).clockRound r).peerRound)

/-- The receiver that a round begin leaves where no target is held: what its presentation, or the drop of a changed D, leaves, with the slots of the
round cleared (R68, R69, R73). -/
theorem State.roundBegin_sr {s : State} (r : RoundBegin) (h : s.sr.target = none) :
    (s.roundBegin r).sr = { ((s.beforePresentation r).receiverRound s.rt.adoptedD).sr with gathered := [] } := by
  have e : (if r.rampOrder == .stepFirst then s.swapRound.rampRound else s.swapRound) =
      if r.rampOrder == .stepFirst then s.swapRound.rampStep else s.swapRound := by
    split
    · exact State.switchIfDown_none (by simpa [State.swapRound] using h)
    · rfl
  simp only [State.roundBegin, e, State.beforePresentation]
  generalize hx : State.receiverRound _ _ = x
  have hx : x.sr.target = none := by
    rw [← hx, State.receiverRound_target]
    split <;> simpa [State.swapRound] using h
  simp only [State.presenceRound_frame, State.sourceClose_frame]
  rw [State.joinRound_sr]
  · simp only [State.outputRound_frame]
    rw [State.switchIfDown_none (by simpa using hx)]
    split
    · simp only [State.rampRound]
      rw [State.switchIfDown_none (by simpa using hx)]
      simp
    · simp
  · simp only [State.outputRound_frame]
    rw [State.switchIfDown_none (by simpa using hx)]
    split
    · simp only [State.rampRound]
      rw [State.switchIfDown_none (by simpa using hx)]
      simpa using hx
    · simpa using hx

end Sys2Proof.Machine
end

