-- ==== Sys2Proof/Tests/Slice0.lean ====
section
/-! SUPPORT. Small tests: an ill-formed command for each check of WellFormed, one or two steps of each command, and for each statement with
hypotheses a concrete state and operands that meet them, clause by clause. -/

set_option Elab.async false

namespace Sys2Proof.Tests

open Sys2Proof.Machine

/-! ## Helpers -/

/-- The state after a command. -/
def after (c : Instr) (s : State) : State :=
  match exec c s with
  | .next t => t
  | .fault _ => s
  | .refused _ => s

/-- Station 1 in zone 0, ACTIVE and LOCKED in round 5 with station 0 as sender, a tuner fitted and the supply NORMAL. -/
def station : State :=
  { State.reset with
    rc := { powerOn := false, nReset := false }
    sm := .normal
    cl := { Configuration.reset with
      station := 1, imageRead := true, valid := true, joined := true
      values := { ConfigValues.default with tunerFitted := true, roles := #v[some .fl, some .fr, none, none] } }
    pt := { PeerTable.reset with mode := .active, joinFlag := false, firstOffered := true, joinCount := 80 }
    rt := { RoundTimer.reset with
      roundNumber := some 5, currentSender := some 0, roundBegun := true, prevCapture := some 0, discipline := .locked
      takeover := .fromMark }
    zt := { ZoneTable.reset with records := Vector.replicate 4 { ZoneRecord.reset with standby := false } }
    ps := { PresetStore.reset (Vector.replicate 2 Sector.erased) with recoveryEnded := true }
    cr := { held := 0, statusDue := false } }

/-- A change of the round timer of the station. -/
def station.clock (f : RoundTimer → RoundTimer) : State := { station with rt := f station.rt }

/-- A change of output 0 of the station. -/
def station.output (f : OutputRecord → OutputRecord) : State := station.setOutput 0 (f OutputRecord.reset)

/-- A change of the tuner of the station. -/
def station.tuner (f : Tuner → Tuner) : State := { station with tb := f Tuner.reset }

/-- A change of the preset store of the station. -/
def station.store (f : PresetStore → PresetStore) : State := { station with ps := f station.ps }

/-- A change of input A of the station, its clock present. -/
def station.input (f : InputRecord → InputRecord) : State :=
  { station with ir := { station.ir with recA := f InputRecord.reset }, pins := { station.pins with clockA := true } }

/-- A mark of a station with a round number, heard after a time, with nothing delivered in the round. -/
def markOf (sender : Station) (number : RoundNo) (d elapsed : Nat) : RoundBegin :=
  { sender := BitVec.ofNat 3 sender.val, body := encodeMark { sender := sender, number := number, d := d }, elapsed := elapsed
    rampOrder := .stepFirst, inputA := { meanRate := none, frames := [] }, inputB := { meanRate := none, frames := [] }
    frontEnd := { edges := 0, levels := [], pilot := false }, demodulated := { stereo := [], mono := [] } }

/-- A damaged mark. -/
def damaged (elapsed : Nat) : RoundBegin := { markOf 0 0 3 elapsed with body := [0, 0, 0, 0, 0] }

/-- An operation at 87600 kHz. -/
def operation (kind : OpKind) (stage : Stage) : Operation :=
  { kind := kind, requester := { station := 3, zone := 0 }, direction := .up, start := 87500, band := .fm, preset := 0, stage := stage
    target := some 87600 }

/-- Whether a REPLY with a kind and outcome waits in the queue. -/
def hasReply (s : State) (kind : RequestKind) (outcome : ReplyOutcome) : Bool :=
  s.lc.queue.any fun e =>
    match e.msg with
    | .reply c => c.kind == kind && c.outcome == outcome
    | _ => false

/-- The station with station 3 in its peer table. -/
def withPeer (silence : Nat) : State :=
  let entry := { zone := 0, mode := .active, outputs := Vector.replicate 4 { role := none, health := .ok }, silence := silence }
  { station with pt := { station.pt with entries := station.pt.entries.set 3 (some entry) } }

/-- The silence count of station 3. -/
def silenceOf (s : State) : Option Nat := (s.pt.entries[(3 : Station)]).map (·.silence)

/-! ## Well-formed commands -/

theorem test_wf_mark_of_four_bytes : (Instr.roundBegin { markOf 0 0 3 0 with body := [0, 0, 0, 0] }).wf = false := by decide +kernel
theorem test_wf_mark : (Instr.roundBegin (markOf 0 0 3 0)).wf = true := by decide +kernel
theorem test_wf_payload_of_25_bytes : (Instr.claim 0 (List.replicate 25 0)).wf = false := by decide +kernel
theorem test_wf_payload_of_24_bytes : (Instr.status 0 (List.replicate 24 0)).wf = true := by decide +kernel
theorem test_wf_slot_of_148_bytes : (Instr.slotEnd 0 (List.replicate 148 0)).wf = false := by decide +kernel
theorem test_wf_block_of_68_bytes : (Instr.blockCompletion .a (List.replicate 68 0)).wf = false := by decide +kernel
theorem test_wf_block_of_497_bytes : (Instr.blockCompletion .a (List.replicate 497 0)).wf = false := by decide +kernel
theorem test_wf_unknown_kind_of_a_known_kind : (Instr.unknownKind { cls := 0, sender := 3 } 1).wf = false := by decide +kernel
theorem test_wf_unknown_kind_of_code_0 : (Instr.unknownKind { cls := 0, sender := 3 } 0).wf = true := by decide +kernel
theorem test_wf_unknown_kind_of_another_class : (Instr.unknownKind { cls := 1, sender := 3 } 1).wf = true := by decide +kernel
theorem test_wf_image_of_31_bytes : (Instr.imageRead (List.replicate 31 0)).wf = false := by decide +kernel

/-! ## Wire formats -/

theorem test_check_word : crc [0x31, 0x32, 0x33, 0x34, 0x35, 0x36, 0x37, 0x38, 0x39] = 0x29B1 := by decide +kernel
theorem test_claim_bytes : encodePayload (.claim { station := 2, source := .b } .packed 20) = [0x41, 0x01, 0x14] := by decide +kernel
theorem test_presence_bytes :
    encodePayload (.presence station.presenceOf) = [0x00, 0x01, 0x00, 0x00, 0x10, 0xF0, 0xF0, 0x3C] := by decide +kernel
theorem test_no_word_spells_a_command : decodeTableWord 8 0 = none := by decide +kernel

/-- A body of kind code 1 is a CLAIM in class 0 and no message of a known kind in class 1; so is one of code 20. -/
theorem test_kind_codes :
    commandOfBody { cls := 0, sender := 2 } (withCheck [8, 0]) = some (.claim 2 [])
      ∧ commandOfBody { cls := 1, sender := 2 } (withCheck [8, 0]) = some (.unknownKind { cls := 1, sender := 2 } 1)
      ∧ commandOfBody { cls := 0, sender := 2 } (withCheck [160, 0]) = some (.unknownKind { cls := 0, sender := 2 } 20) := by decide +kernel

/-! ## Rounds and the clock -/

theorem test_roundBegin_reads_the_number : (after (.roundBegin (markOf 0 9 4 12290)) station).rt.roundNumber = some 9 := by decide +kernel
theorem test_roundBegin_trims : (after (.roundBegin (markOf 0 9 4 12300)) station).rt.trim = 6 := by decide +kernel
theorem test_senderMarkDue :
    (after (.senderMarkDue .quiet) (station.clock fun r => { r with isSender := true })).rt.outgoing =
      some { number := 6, d := 3, periodic := true } := by decide +kernel
theorem test_takeoverTimerExpiry : (after (.takeoverTimerExpiry .quiet) station).rt.discipline = .holdover := by decide +kernel
theorem test_takeoverTimerExpiry_yields : (after (.takeoverTimerExpiry (.contended 0)) station).rt.isSender = false := by decide +kernel
theorem test_holdoverExpiry :
    (after .holdoverExpiry (station.clock fun r => { r with discipline := .holdover, holdover := 31 })).rt.discipline = .free := by decide +kernel

/-! ## Messages -/

theorem test_messageVoided : (after (.messageVoided { cls := 0, sender := 2 } [0]) station).lc.voidDriven = true := by decide +kernel
theorem test_claim :
    (after (.claim 2 [0x41, 0x01, 0x14]) station).st[(23 : Fin 24)] =
      some { stream := { station := 2, source := .b }, kind := .packed, start := 20, silence := 0 } := by decide +kernel
theorem test_claim_beyond_slot_23 : (after (.claim 2 [0x41, 0x01, 0x15]) station).st = station.st := by decide +kernel
theorem test_release :
    (after (.release 2 [0x41]) (after (.claim 2 [0x41, 0x01, 0x14]) station)).st[(23 : Fin 24)] = none := by decide +kernel
theorem test_zoneSet :
    (after (.zoneSet 3 [0x00, 0x14, 0x41, 0x00, 0x50, 0x00]) station).zt.records[(0 : Zone)] =
      { program := some { station := 2, source := .b }, listening := .surround, volume := 80, mute := false, standby := false } := by
  decide +kernel
theorem test_zoneState_is_for_a_joining_station :
    (after (.zoneState 3 (List.replicate 16 0)) station).zt.records = station.zt.records := by decide +kernel
theorem test_zoneState :
    (after (.zoneState 3 (List.replicate 16 0)) { station with pt := { station.pt with mode := .joining } }).zt.records[(3 : Zone)] =
      { program := some { station := 0, source := .a }, listening := .stereo, volume := 0, mute := false, standby := false } := by decide +kernel
theorem test_roleMap : (after (.roleMap 3 [0x01, 0x02, 0x01, 0x0F]) station).cl.overrides[(1 : OutputNo)] = some none := by decide +kernel
theorem test_roleMap_out_of_range : hasReply (after (.roleMap 3 [0x01, 0x02, 0x01, 0x08]) station) .roleMap .badValue = true := by decide +kernel
theorem test_tune : (after (.tune 3 [0x01, 0x00, 0x00, 0x01, 0x56, 0x30]) station).tb.freq = 87600 := by decide +kernel
theorem test_tune_off_the_grid : hasReply (after (.tune 3 [0x01, 0x00, 0x00, 0x01, 0x56, 0x31]) station) .tune .badValue = true := by decide +kernel
theorem test_seek_down_wraps : (after (.seek 3 [0x01, 0x00, 0x01]) station).tb.freq = 108000 := by decide +kernel
theorem test_scan : (after (.scan 3 [0x01, 0x00]) station).tb.state = .settling := by decide +kernel
theorem test_presetRecall : (after (.presetRecall 3 [0x01, 0x00, 0x1E]) station).ps.reads = [{ number := 29, origin := .recall }] := by decide +kernel
theorem test_presetStore :
    (after (.presetStore 3 [0x01, 0x00, 0x01, 0x01, 0x41]) (station.tuner fun t => { t with state := .listening })).ps.queue =
      [.store 0 .fm 87500 [0x41] { station := 3, zone := 0 }] := by decide +kernel
theorem test_presetClear :
    hasReply (after (.presetClear 3 [0x01, 0x00, 0x01]) (station.store fun p => { p with reads := [{ number := 0, origin := .abandoned }] }))
      .presetClear .accepted = true := by decide +kernel
theorem test_presetRead : (after (.presetRead 3 [0x01, 0x00, 0x01]) station).ps.readInService = true := by decide +kernel
theorem test_listRead : (after (.listRead 3 [0x01, 0x00, 0x00, 0x00]) station).lc.queue.length = 1 := by decide +kernel
theorem test_statusQuery : hasReply (after (.statusQuery 3 [0x01, 0x04]) station) .statusQuery .badValue = true := by decide +kernel
theorem test_presence :
    (after (.presence 3 [0x00, 0x01, 0x00, 0x00, 0x10, 0xF0, 0xF0, 0x3C]) station).pt.entries[(3 : Station)] =
      some { zone := 0, mode := .active, silence := 0
             outputs := #v[{ role := some .fl, health := .ok }, { role := some .fr, health := .ok },
                           { role := none, health := .ok }, { role := none, health := .ok }] } := by decide +kernel
theorem test_reply_is_heard : silenceOf (after (.reply 3 []) (withPeer 190)) = some 0 := by decide +kernel
theorem test_listPage_is_heard : silenceOf (after (.listPage 3 []) (withPeer 190)) = some 0 := by decide +kernel
theorem test_presetData_is_heard : silenceOf (after (.presetData 3 []) (withPeer 190)) = some 0 := by decide +kernel
theorem test_status_is_heard : silenceOf (after (.status 3 []) (withPeer 190)) = some 0 := by decide +kernel
theorem test_unknownKind_is_heard : silenceOf (after (.unknownKind { cls := 7, sender := 3 } 0) (withPeer 190)) = some 0 := by decide +kernel

/-! ## Slots, timers and pins -/

/-- Stream 2.B in slots 20 to 23 with a silence count. -/
def withRun (silence : Nat) : State :=
  let entry : SlotEntry := { stream := { station := 2, source := .b }, kind := .packed, start := 20, silence := silence }
  { station with
    st := ((((station.st.set 20 (some entry)).set 21 (some entry)).set 22 (some entry)).set 23 (some entry)) }

theorem test_slotEnd_of_a_silent_run : (after (.slotEnd 20 []) (withRun 7)).st = Vector.replicate 24 none := by decide +kernel
theorem test_slotExpiry : (after (.slotExpiry 21) (withRun 7)).st = Vector.replicate 24 none := by decide +kernel
theorem test_watchdogExpiry :
    (after .watchdogExpiry { station with sr := { Receiver.reset with state := .running, watchdog := 3 } }).sr.state = .lost := by decide +kernel
theorem test_peerAbsence : (after (.peerAbsence 3) (withPeer 191)).pt.entries[(3 : Station)] = none := by decide +kernel
theorem test_rampUpComplete :
    (after (.rampUpComplete 0) (station.output fun o => { o with state := .rampUp, ramp := 15 })).om.outputs[(0 : OutputNo)].state = .playing := by
  decide +kernel
theorem test_rampDownComplete :
    (after (.rampDownComplete 0) (station.output fun o => { o with state := .rampDown, ramp := 1 })).om.outputs[(0 : OutputNo)].state = .silent := by
  decide +kernel
theorem test_outputFault :
    (after (.outputFault 0 .asserts) (station.output fun o => { o with state := .playing, ramp := 16 })).om.outputs[(0 : OutputNo)].recovery = 250 := by
  decide +kernel
theorem test_fourth_fault_retires :
    (after (.outputFault 0 .asserts) (station.output fun o => { o with state := .silent, overload := 3 })).om.outputs[(0 : OutputNo)].state =
      .retired := by decide +kernel
theorem test_faultRecoveryEnd :
    (after (.faultRecoveryEnd 0) (station.output fun o => { o with state := .faulted, overload := 1, recovery := 1 })).om.outputs[(0 : OutputNo)].state =
      .silent := by decide +kernel
theorem test_overloadDecay :
    (after (.overloadDecay 0) (station.output fun o => { o with state := .silent, overload := 2, decay := 4095 })).om.outputs[(0 : OutputNo)].overload =
      1 := by decide +kernel
theorem test_supplyMoveToLow : (after .supplyMoveToLow station).cr.held = 0x000004 := by decide +kernel
theorem test_supplyMoveToNormal : (after .supplyMoveToNormal (after .supplyMoveToLow station)).cr.held = 0 := by decide +kernel
theorem test_muteLineAssert : (after .muteLineAssert station).cr.held = 0x000008 := by decide +kernel
theorem test_muteLineRelease : (after .muteLineRelease (after .muteLineAssert station)).cr.held = 0 := by decide +kernel
theorem test_clockGained : (after (.clockGained .b) station).ir.recB.state = .acquiring := by decide +kernel
theorem test_clockLost : (after (.clockLost .a) (station.input fun r => { r with state := .pcm })).ir.recA.state = .noSignal := by decide +kernel
theorem test_acquiringEnd :
    (after (.acquiringEnd .a) (station.input fun r => { r with state := .acquiring, rateClass := some .r441, steady := 7 })).ir.recA.state = .pcm := by
  decide +kernel
theorem test_syncPattern :
    (after (.syncPattern .a 0) (station.input fun r => { r with state := .pcm, rateClass := some .r48, lastCounter := some 0xFF, syncRun := 1 })).ir.recA.state =
      .packed := by decide +kernel
theorem test_syncLost :
    (after (.syncLost .a) (station.input fun r => { r with state := .packed, rateClass := some .r48, syncRun := 2, withoutSync := 1 })).ir.recA.state =
      .pcm := by decide +kernel
theorem test_blockCompletion :
    (after (.blockCompletion .a [3]) (station.input fun r => { r with state := .packed, blocks := [[1], [2]], inProgress := true })).ir.recA.blocks =
      [[2], [3]] := by decide +kernel
theorem test_carrierBoundary :
    (after .carrierBoundary (station.output fun o => { o with state := .silent })).om.outputs[(0 : OutputNo)].enabled = true := by decide +kernel

/-! ## Tuner and store -/

theorem test_settleEnd : (after .settleEnd (station.tuner fun t => { t with state := .settling, phase := 1 })).tb.state = .measuring := by decide +kernel
theorem test_gateClose :
    (after (.gateClose 12288 { edges := 10700, levels := [60, 71], pilot := true })
      (station.tuner fun t => { t with state := .measuring, phase := 1, gate := { Gate.reset with pilot := true } })).tb.level = 65 := by decide +kernel
theorem test_unheldTimeout : (after .unheldTimeout (station.tuner fun t => { t with state := .listening, unheld := 999 })).tb.state = .off := by decide +kernel
theorem test_readSuspendDelayEnd :
    (after .readSuspendDelayEnd
      (station.store fun p => { p with engine := .suspended .erasing, reads := [{ number := 0, origin := .abandoned }] })).ps.readInService = true := by
  decide +kernel
theorem test_readComplete :
    hasReply (after .readComplete
      (station.store fun p => { p with readInService := true, reads := [{ number := 0, origin := .presetRead { station := 3, zone := 0 } }] }))
      .presetRead .empty = true := by decide +kernel

/-- A STORE being programmed into slot 1 of sector 0, which has slot 0 LIVE for the same preset. -/
def programming : Programming :=
  { entry := .store 0 .fm 87500 [0x41] { station := 3, zone := 0 }, slot := { sector := 0, slot := 1 }
    record := { RecordSlot.erased with state := 0x3F, number := 1 }, previous := some { sector := 0, slot := 0 } }

/-- A compaction into sector 1 of one record. -/
def compaction : Compaction := { spare := 1, copyList := [{ sector := 0, slot := 0 }], copied := 0, next := .copying }

theorem test_programmingCommit :
    (after .programmingCommit (station.store fun p => { p with engine := .running .programming, current := some programming })).ps.index[(0 : Fin 30)] =
      some { sector := 0, slot := 1 } := by decide +kernel
theorem test_supersedingEnd :
    (slotAt (after .supersedingEnd (station.store fun p => { p with engine := .running .superseding, current := some programming })).ps.sectors
      { sector := 0, slot := 0 }).state = 0x1F := by decide +kernel
theorem test_erasingEnd :
    (after .erasingEnd (station.store fun p => { p with engine := .running .erasing, compaction := some compaction })).ps.engine = .running .header := by
  decide +kernel
theorem test_copyingEnd :
    (after .copyingEnd (station.store fun p => { p with engine := .running .copying, compaction := some compaction })).ps.engine = .running .header := by
  decide +kernel
theorem test_headerEnd :
    ((after .headerEnd (station.store fun p => { p with engine := .running .header, compaction := some compaction })).ps.sectors[(1 : Fin 2)]).mark =
      0xA5 := by decide +kernel

/-! ## Reset and joining -/

theorem test_reset : (after (.reset .nReset) station).cr.held = 0x000006 := by decide +kernel
theorem test_leaveReset : (after (.leaveReset .powerOn 6) State.reset).cl.station = 6 := by decide +kernel
theorem test_imageRead_of_nothing : (after (.imageRead []) (after (.leaveReset .powerOn 6) State.reset)).cr.held = 0x000007 := by decide +kernel
/-- An image of zone 2, roles FL, FR, NONE, NONE, plan A, a tuner, F 0, watchdog 4, RAMP, D 3, thresholds 40 and 30. -/
def image : List Byte :=
  withCheck ([0x5A, 0x37, 2, 0, 1, 15, 15, 0, 1, 0, 4, 1, 3, 40, 30] ++ List.replicate 13 0)
theorem test_image_is_valid : (readImage image).isSome = true := by decide +kernel
theorem test_recoveryEnd_of_an_empty_store :
    (after .recoveryEnd (after (.leaveReset .powerOn 6) State.reset)).ps.compaction = some (newCompaction none) := by decide +kernel
theorem test_joinStart : (after .joinStart { station with cl := { station.cl with joined := false } }).rt.takeover = .fromJoin := by decide +kernel
theorem test_joinWindowEnd :
    (after .joinWindowEnd { station with pt := { station.pt with mode := .joining, joinCount := 79 } }).pt.mode = .active := by decide +kernel

/-! ## Witnesses: states and operands that meet the hypotheses of the statements -/

/-- RoundBeginReadsTheMark, EvaluatedMarksTrimTheClock and RoundBeginSwapsAndSlews: a good mark with D at 2, 6, 1 and 7, and a damaged one. -/
theorem witness_round_begin :
    station.joined = true ∧ readMark 0 (markOf 0 9 2 0).body = some { sender := 0, number := 9, d := 2 }
      ∧ (after (.roundBegin (markOf 0 9 2 12288)) station).rt.adoptedD = 2
      ∧ (after (.roundBegin (markOf 0 9 6 12288)) station).rt.adoptedD = 6
      ∧ (after (.roundBegin (markOf 0 9 1 12288)) station).rt.adoptedD = 3
      ∧ (after (.roundBegin (markOf 0 9 7 12288)) station).rt.adoptedD = 3
      ∧ readMark 0 (damaged 0).body = none := by decide +kernel

/-- The peer clause of RoundBeginReadsTheMark: a silence count of 190 is kept and counted, one of 191 removes the entry. -/
theorem witness_round_begin_peers :
    silenceOf (after (.roundBegin (markOf 0 9 3 12288)) (withPeer 190)) = some 191
      ∧ silenceOf (after (.roundBegin (markOf 0 9 3 12288)) (withPeer 191)) = none := by decide +kernel

/-- The station with a receiver of stream 2.B whose ring holds an entry for round 6. -/
def receiving (state : ReceiverState) (status : EntryStatus) (f : Receiver → Receiver) : State :=
  let entry := { round := some 6, status := status, kind := some .pcm2, noBlock := false, data := [] }
  { station with sr := f { Receiver.reset with
    subscription := some { station := 2, source := .b }, state := state, ring := emptyRing.set (ringIndex 6) entry } }

/-- The receiver after the round begin of round 9, which presents round 6. -/
def presented (s : State) : Receiver := (after (.roundBegin (markOf 0 9 3 12288)) s).sr

/-- The ring clauses of RoundBeginReadsTheMark in RUNNING: an entry received, one MISSING, and one MISSING at the limit. -/
theorem witness_presentation_running :
    (presented (receiving .running .valid fun r => { r with watchdog := 2 })).watchdog = 0
      ∧ (presented (receiving .running .valid id)).programKind = some .pcm2
      ∧ (presented (receiving .running .missing fun r => { r with watchdog := 2 })).watchdog = 3
      ∧ (presented (receiving .running .missing fun r => { r with watchdog := 3 })).state = .lost := by decide +kernel

/-- The ring clauses in FILLING: an entry leads without a lead and with its own round as lead, and not behind a later lead; a lead whose round has
come is dropped, in ACQUIRING too, and one that a jump of the number has passed bars nothing. -/
theorem witness_presentation_filling :
    (presented (receiving .filling .muted id)).state = .running
      ∧ (presented (receiving .filling .valid fun r => { r with lead := some 6 })).state = .running
      ∧ (presented (receiving .filling .valid fun r => { r with lead := some 5 })).state = .running
      ∧ (presented (receiving .filling .valid fun r => { r with lead := some 7 })).lead = some 7
      ∧ (presented (receiving .filling .missing fun r => { r with lead := some 6 })).lead = none
      ∧ (let s := { receiving .filling .valid (fun r => { r with lead := some 6 }) with
            rt := { station.rt with discipline := .acquiring } }
        (presented s).state = .filling ∧ (presented s).lead = none) := by decide +kernel

/-- A change of D drops the ring of a receiver that is not IDLE, and no round is presented while the round number is unknown. -/
theorem witness_presentation_none :
    (after (.roundBegin (markOf 0 9 4 12288)) (receiving .lost .valid id)).sr.state = .filling
      ∧ (after (.roundBegin (markOf 0 9 4 12288)) (receiving .idle .valid id)).sr.ring ≠ emptyRing
      ∧ (let s := { receiving .running .valid id with rt := { station.rt with roundNumber := none } }
        s.sr.target = none ∧ (after (.roundBegin (damaged 12288)) s).rt.roundNumber = none
          ∧ (after (.roundBegin (damaged 12288)) s).sr.state = .running) := by decide +kernel

/-- EvaluatedMarksTrimTheClock: marks that are not evaluated for each of the causes, and the interval at its bound; the own takeover mark is not evaluated
although the current sender is the station already, the own periodic mark is (R16). -/
theorem witness_not_evaluated :
    (station.clock fun r => { r with discipline := .free }).markError (markOf 0 9 3 12288) = none
      ∧ (station.clock fun r => { r with prevCapture := none }).markError (markOf 0 9 3 12288) = none
      ∧ (station.clock fun r => { r with lostAsSender := true }).markError (markOf 0 9 3 12288) = none
      ∧ station.markError (markOf 4 9 3 12288) = none ∧ station.markError (damaged 12288) = none
      ∧ station.markError (markOf 0 9 3 15361) = none ∧ station.markError (markOf 0 9 3 15360) = some 3072
      ∧ (let sent (p : Bool) : State := station.clock fun r =>
          { r with currentSender := some 1, isSender := true, outgoing := some { number := 9, d := 3, periodic := p } };
        (sent false).markError (markOf 1 9 3 12800) = none ∧ (sent true).markError (markOf 1 9 3 12800) = some 0) := by decide +kernel

/-- A station that was the sender before a pass through STANDBY in one window (R48) takes over with 50 samples and hears its own mark: a re-base that
leaves the trim, in HOLDOVER with run and count at 0 (R14, R16). -/
theorem test_own_takeover_mark_is_a_rebase :
    let s := after (.roundBegin (markOf 1 9 3 12800))
      (after (.takeoverTimerExpiry .quiet) (station.clock fun r => { r with currentSender := some 1 }));
    s.rt.trim = 0 ∧ s.rt.discipline = .holdover ∧ s.rt.goodRun = 0 ∧ s.rt.holdover = 0 ∧ s.rt.isSender = true := by decide +kernel

/-- The station in ACQUIRING with a good-mark run. -/
def acquiring (run : Nat) : State := station.clock fun r => { r with discipline := .acquiring, goodRun := run }

/-- AcquiringCountsGoodMarks: errors of 64 and 65, runs of 14 and 15, a re-base, and a running takeover timer. -/
theorem witness_acquiring :
    (acquiring 14).joined = true ∧ (acquiring 14).rt.discipline = .acquiring ∧ (acquiring 14).timerRuns = true
      ∧ (acquiring 14).markError (markOf 0 9 3 12352) = some 64 ∧ (acquiring 14).markError (markOf 0 9 3 12353) = some 65
      ∧ (acquiring 14).markError (markOf 0 9 3 12224) = some (-64) ∧ (acquiring 14).markError (damaged 12288) = none
      ∧ (after (.roundBegin (markOf 0 9 3 12352)) (acquiring 14)).rt.goodRun = 15
      ∧ (after (.roundBegin (markOf 0 9 3 12352)) (acquiring 15)).rt.discipline = .locked := by decide +kernel

/-- LockedHoldsOrMoves: errors of 512 and 513, a re-base, and a running takeover timer. -/
theorem witness_locked :
    station.joined = true ∧ station.rt.discipline = .locked ∧ station.timerRuns = true
      ∧ station.markError (markOf 0 9 3 12800) = some 512 ∧ station.markError (markOf 0 9 3 12801) = some 513
      ∧ station.markError (damaged 12288) = none := by decide +kernel

/-- The station in HOLDOVER. -/
def inHoldover (run count : Nat) : State :=
  station.clock fun r => { r with discipline := .holdover, goodRun := run, holdover := count }

/-- HoldoverEnds at the fourth good mark, at the 32nd round, at both and at neither; HoldoverExpiryCuts at 31. -/
theorem witness_holdover :
    (inHoldover 3 31).joined = true ∧ (inHoldover 3 31).rt.discipline = .holdover ∧ (inHoldover 3 31).rt.holdoverFresh = false
      ∧ (after (.roundBegin (markOf 0 9 3 12288)) (inHoldover 3 31)).rt.discipline = .locked
      ∧ (after (.roundBegin (markOf 0 9 3 12288)) (inHoldover 2 31)).rt.discipline = .free
      ∧ (after (.roundBegin (markOf 0 9 3 12288)) (inHoldover 2 30)).rt.discipline = .holdover
      ∧ (after (.roundBegin (damaged 12288)) (inHoldover 3 30)).rt.goodRun = 0 := by decide +kernel

/-- SenderSendsItsMark and TakeoverSendsAMark: a quiet link, the opening of another mark, and contenders above and below. -/
theorem witness_marks :
    (let s := station.clock fun r => { r with isSender := true };
      s.joined = true ∧ s.mayMark = true ∧ s.rt.isSender = true ∧ s.rt.outgoing = none
        ∧ (after (.senderMarkDue (.contended 1)) s).rt.outgoing.isSome = true ∧ (after (.senderMarkDue (.contended 0)) s).rt.outgoing = none
        ∧ (after (.senderMarkDue (.contended 0)) s).rt.lostAsSender = true
        ∧ (after (.senderMarkDue .opening) s).rt.outgoing = none)
      ∧ station.timerRuns = true ∧ station.quiet = true ∧ (after (.takeoverTimerExpiry (.contended 2)) station).rt.isSender = true := by
  decide +kernel

/-- A queue entry that is in flight in the position of its class and sender. -/
def sending : State :=
  { station with lc := { station.lc with
      windowOpen := true, queue := [{ msg := .release { station := 1, source := .a }, inFlight := true }] } }

/-- The same with the mark still on the link: the first position opens with the take. -/
def waitingForTheMark : State :=
  { station with lc := { station.lc with
      windowOpen := true, markOnLink := true, queue := [{ msg := .release { station := 1, source := .a }, inFlight := false }] } }

/-- StepRunsTheFrontCommand: a station that contends at the first position. -/
theorem witness_idle :
    waitingForTheMark.pending = [] ∧ waitingForTheMark.lc.markOnLink = true ∧ waitingForTheMark.lc.inFlight = none
      ∧ waitingForTheMark.lc.windowOpen = true ∧ waitingForTheMark.lc.positions = 0 ∧ waitingForTheMark.lc.sendFlag = false := by decide +kernel

/-- VoidedMessageActsNowhere, IgnoredMessagesAreOnlyHeard and ReleasesFreeRuns: the own position and another's, a request that names another station, and bodies
that are void and sound. -/
theorem witness_positions :
    station.takes = true ∧ station.quiet = true ∧ sending.takes = true ∧ sending.quiet = true ∧ sending.lc.nothingDeferred = true
      ∧ sending.endMark.lc.isOwnPosition sending.own { cls := 0, sender := 1 } = true
      ∧ waitingForTheMark.endMark.lc.isOwnPosition waitingForTheMark.own { cls := 0, sender := 1 } = true
      ∧ waitingForTheMark.takes = true ∧ waitingForTheMark.quiet = true ∧ waitingForTheMark.lc.nothingDeferred = true
      ∧ station.endMark.lc.isOwnPosition station.own { cls := 0, sender := 1 } = false
      ∧ bodyIsVoid [] = true ∧ bodyIsVoid (encodeBody (.release { station := 1, source := .a })) = false
      ∧ addressedTo station.own [2] = false ∧ addressedTo station.own [] = false := by decide +kernel

/-- A queue of n replies with the first in flight. -/
def replies (n : Nat) : LinkController :=
  let m : Msg := .reply { requester := { station := 3, zone := 0 }, kind := .tune, outcome := .done, value := none }
  { LinkController.reset with queue := { msg := m, inFlight := true } :: List.replicate (n - 1) { msg := m, inFlight := false } }

/-- FullQueueDiscardsOrDisplaces: the queue about the message that is lost, and about the place of the new one. -/
theorem witness_displacement :
    let claim : QueueEntry := { msg := .claim { station := 1, source := .b } .pcm2 4, inFlight := true }
    let presence : QueueEntry := { msg := .presence station.presenceOf, inFlight := false }
    let six := (replies 7).queue.drop 1;
    let lc : LinkController := { LinkController.reset with queue := claim :: six ++ [presence] }
    let lost : QueueEntry := six.headD presence;
    8 ≤ lc.queue.length ∧ lc.queue.any (fun e => coalesces e.msg (.release { station := 1, source := .a })) = false
      ∧ lc.queue = (claim :: six.drop 1) ++ lost :: [presence] ∧ lost.msg.cls = 3 ∧ lost.inFlight = false
      ∧ (∀ e ∈ [presence], e.msg.cls = 3 → e.inFlight = true)
      ∧ (claim :: six.drop 1) ++ [presence] = [claim] ++ (six.drop 1 ++ [presence])
      ∧ (∀ e ∈ [claim], e.msg.cls = 0) ∧ ∀ e ∈ six.drop 1 ++ [presence], e.msg.cls ≠ 0 := by decide +kernel

/-- FullQueueDiscardsOrDisplaces: a full queue without a message of the same kind, with and without a class-3 message to displace. -/
theorem witness_full_queue :
    8 ≤ (replies 8).queue.length
      ∧ (replies 8).queue.any (fun e => coalesces e.msg (.release { station := 1, source := .a })) = false
      ∧ (∃ e ∈ (replies 8).queue, e.msg.cls = 3 ∧ e.inFlight = false)
      ∧ (Msg.release { station := 1, source := .a }).cls = 0 ∧ (Msg.zoneState (Vector.replicate 4 ZoneRecord.reset)).cls ≠ 0
      ∧ (let lc := { LinkController.reset with queue := List.replicate 8 { msg := .release { station := 1, source := .a }, inFlight := false } }
        8 ≤ lc.queue.length ∧ lc.queue.any (fun e => coalesces e.msg (.release { station := 1, source := .b })) = false
          ∧ ∀ e ∈ lc.queue, e.msg.cls = 3 → e.inFlight = true) := by decide +kernel

/-- ReportsCoalesce: a pending STATUS between two messages, in flight or not. -/
theorem witness_coalescing (flight : Bool) :
    let e : QueueEntry := { msg := .status station.statusOf, inFlight := flight }
    let before : List QueueEntry := [{ msg := .release { station := 1, source := .a }, inFlight := false }]
    let behind : List QueueEntry := [{ msg := .presence station.presenceOf, inFlight := false }]
    let lc : LinkController := { LinkController.reset with queue := before ++ e :: behind }
    lc.wf ∧ lc.queue = before ++ e :: behind ∧ coalesces e.msg (.status station.statusOf) = true := by
  cases flight <;> simp [LinkController.wf, coalesces, Msg.isPresence, Msg.isStatus, Msg.cls]

/-- The statements about every step: a state with the six invariants, and a command at the front of its queue that answers a next
state. -/
def waiting : State := { station with pending := [.muteLineAssert] }

theorem witness_step : ∃ t, step waiting = .next t ∧ t.cr.held = 0x000008 := ⟨_, rfl, by decide +kernel⟩

theorem witness_queue_invariant : waiting.lc.wf := by
  simp [LinkController.wf, waiting, station, State.reset, State.resetWith, LinkController.reset]

theorem witness_slot_invariant : SlotTable.wf waiting.st := by
  refine ⟨?_, ?_, ?_⟩
  · intro i e h; simp [waiting, station, State.reset, State.resetWith] at h
  · intro i j x y h; simp [waiting, station, State.reset, State.resetWith] at h
  · intro k; simp [SlotTable.heldBy, heldOutside, waiting, station, State.reset, State.resetWith]

theorem witness_zone_invariant : waiting.zonesWf := by
  intro z
  simp [waiting, station, ZoneTable.reset, ZoneRecord.wf, ZoneRecord.reset, ZoneMarks.wf, ZoneMarks.clear]

theorem witness_holder_invariant : waiting.holdersWf := by
  refine ⟨by decide +kernel, ?_, by decide +kernel, by decide +kernel⟩
  rw [if_pos (by decide +kernel)]
  decide +kernel

theorem witness_output_invariant : waiting.outputsWf := by
  intro n
  simp [waiting, station, State.reset, State.resetWith, OutputModulators.reset, OutputRecord.reset, OutputRecord.wf, OutState.sounding]

theorem witness_condition_invariant : waiting.conditionsWf := by
  refine ⟨?_, by decide +kernel⟩
  intro k
  cases k <;> (try (rename_i x; first | (fin_cases x) | (cases x))) <;> decide +kernel

/-- PeersEnterAndLeave: content in and out of range, and a silence count of 191. -/
theorem witness_peers :
    (presenceFields [0x00, 0x01, 0x00, 0x00, 0x10, 0xF0, 0xF0, 0x3C]).isSome = true ∧ presenceFields [0x04, 0x01] = none
      ∧ (withPeer 191).joined = true ∧ silenceOf (withPeer 191) = some 191 := by decide +kernel

/-- JoiningPresenceIsAnswered: a flagged PRESENCE, room, and no ZONE STATE pending; a station with an entry of its own answers. -/
theorem witness_joining_presence :
    station.takes = true ∧ joiningFlag [0x00, 0x00, 0x01] = true ∧ station.hasRoom = true ∧ station.lc.queue = []
      ∧ (let s : State := { station with pt := { station.pt with entries := (withPeer 0).pt.entries.set 1 ((withPeer 0).pt.entries[(3 : Station)]) } }
        s.qualifies s.own = true ∧ s.qualifies 0 = false
          ∧ (after (.presence 4 [0x00, 0x00, 0x01, 0xF0, 0xF0, 0xF0, 0xF0, 0x3F]) s).lc.queue.map (·.msg.cls) = [1]) := by decide +kernel

/-- ModeFollowsTheTables and StandbyPowersDown: a ZONE SET that brings the own zone into standby, and its end, with a SCAN in flight. -/
theorem witness_modes :
    movesMode (.zoneSet 3 [0x00, 0x01, 0, 0, 0, 1]) = true ∧ station.takes = true ∧ station.pt.mode ≠ .joining ∧ station.pt.mode ≠ .standby
      ∧ (after (.zoneSet 3 [0x00, 0x01, 0, 0, 0, 1]) station).pt.mode = .standby
      ∧ (let s := station.tuner fun t => { t with
            op := some (operation .scan .ending), fmList := { entries := [⟨87500, 60⟩], complete := true } };
        ((after (.zoneSet 3 [0x00, 0x01, 0, 0, 0, 1]) s).tb.list .fm) = { entries := [⟨87500, 60⟩], complete := false }) := by decide +kernel

/-- ClaimsAreTested, ReleasesFreeRuns and SlotsAreJudged: fields in and out of range, a run at the last slot, the slot limit, and counts of 6 and 7. -/
theorem witness_slots :
    station.takes = true ∧ (withRun 7).takes = true ∧ claimFields [0x41, 0x01, 0x18] = none ∧ releaseField [0x43] = none
      ∧ claimFields [0x41, 0x00, 0x16] = some ({ station := 2, source := .b }, .pcm2, 22)
      ∧ SlotTable.allows (withRun 7).st 2 (fun _ => false) .packed = true
      ∧ (after (.slotEnd 20 []) (withRun 6)).st[(20 : Fin 24)].map (·.silence) = some 7
      ∧ (after (.slotEnd 20 []) (withRun 7)).st[(20 : Fin 24)] = none := by decide +kernel

/-- A header of part 0 of the run at slots 20 to 23, with the capture round of round 5. -/
def header : SlotHeader :=
  { stream := { station := 2, source := .b }, kind := .packed, part := 0, muted := false, noBlock := false, capture := 4 }

/-- SlotsAreJudged, RingIsWritten: a valid header. -/
theorem witness_header : (validHeader (some 5) 20 (encodeSlot header (List.replicate 144 0))).isSome = true := by decide +kernel

/-- OwnSlotsAreSent: an own slot after the join window, and a slot of the tuner's stream at a station without a tuner. -/
theorem witness_own_slot :
    (after (.claim 1 [0x20, 0x00, 0x00]) station).st[(0 : Fin 24)].map (·.stream.station) = some station.own
      ∧ station.pt.mode ≠ .joining ∧ station.takes = true ∧ station.rt.roundNumber = some 5
      ∧ (let s : State := { station with cl := { station.cl with values := ConfigValues.default } };
        ((after (.claim 1 [0x22, 0x00, 0x00]) s).st[(0 : Fin 24)]).map (·.stream.source) = some .t
          ∧ s.cl.values.tunerFitted = false) := by decide +kernel

/-- RingIsWritten: slot 23 closes a round that brought every part of a run, one of them muted or none, and a round that brought nothing; and a
target that is held until the outputs are silent. -/
theorem witness_ring_entries (muted : Bool) :
    let stream : Stream := { station := 2, source := .b };
    let part (i : Nat) (m : Bool) : GatheredSlot :=
      { kind := .pcm2, start := 20, part := i, good := true, muted := m, noBlock := false, data := [] };
    let s : State := { station with sr := { Receiver.reset with subscription := some stream, gathered := [part 0 false, part 1 muted] } };
    let t := after (.slotEnd 23 []) s;
    s.takes = true ∧ s.rt.roundNumber = some 5 ∧ t.sr.target = s.sr.target
      ∧ (t.sr.ring[ringIndex 4]).status = (if muted then .muted else .valid)
      ∧ ((after (.slotEnd 23 []) { s with sr := { s.sr with gathered := [] } }).sr.ring[ringIndex 4]).status = .missing := by
  cases muted <;> decide +kernel

theorem witness_ring_target :
    let stream : Stream := { station := 2, source := .b };
    let s : State := { withRun 7 with sr := { Receiver.reset with subscription := some stream, target := some none } };
    s.takes = true ∧ s.sr.subscription = some stream ∧ (after (.slotEnd 20 []) s).sr.subscription = some stream
      ∧ s.sr.target = some none := by decide +kernel

/-- RingIsWritten: a subscribed station without a target, in RUNNING and in LOST. -/
theorem witness_ring (lost : Bool) :
    let s : State := { station with sr := { Receiver.reset with
      subscription := some { station := 2, source := .b }, state := if lost then .lost else .running } }
    s.takes = true ∧ s.sr.subscription = some { station := 2, source := .b } ∧ s.rt.roundNumber = some 5 ∧ s.sr.target = none := by
  cases lost <;> decide +kernel

/-- RingIsWritten, the lead: an older entry received takes its place, a MISSING one leaves it, and it goes with its own entry. -/
theorem witness_ring_lead :
    let whole (i : Nat) : GatheredSlot :=
      { kind := .pcm2, start := 20, part := i, good := true, muted := false, noBlock := false, data := [] };
    let lead (r : RoundNo) (g : List GatheredSlot) : Option RoundNo :=
      (after (.slotEnd 23 []) (receiving .filling .valid fun x => { x with lead := some r, gathered := g })).sr.lead;
    lead 6 [whole 0, whole 1] = some 4 ∧ lead 6 [] = some 6 ∧ lead 12 [] = none ∧ lead 3 [whole 0, whole 1] = none := by decide +kernel

/-- RecordsSettle: a record that publishes with nothing outstanding. -/
theorem witness_settle :
    station.publishes .a = true ∧ (station.sp.get .a).outstanding = .none ∧ (withRun 7).publishes .t = true := by decide +kernel

/-- ZoneSetsAreApplied and ZoneStatesFillRecords: fields in range at a volume of 160 and out of range at 161, in and outside the join window. -/
theorem witness_zones :
    (zoneSetFields [0x03, 0x04, 0, 0, 160]).isSome = true ∧ zoneSetFields [0x03, 0x04, 0, 0, 161] = none ∧ zoneSetFields [0x04, 0x00] = none
      ∧ (zoneStateFields (List.replicate 16 0)).isSome = true ∧ zoneStateFields (List.replicate 16 1) = none
      ∧ (let s : State := { station with pt := { station.pt with mode := .joining } };
        s.takes = true ∧ s.pt.joinFlag = false
          ∧ ((after (.zoneSet 3 [0x00, 0x10, 0x22, 0, 0, 0]) s).zt.marks[(0 : Zone)]).standby = true
          ∧ (after (.zoneSet 3 [0x00, 0x10, 0x22, 0, 0, 0]) s).tb.holders = [0]) := by decide +kernel

/-- ZoneSetsAreApplied, the receiver: a switch at once, a held target, a change back that drops it, and the switch of a target by the take that
puts the station in STANDBY. -/
theorem witness_zone_switch :
    let program (b : Byte) (s : State) : Receiver := (after (.zoneSet 3 [0x00, 0x10, b]) s).sr;
    let sounding (s : State) : State := s.setOutput 0 { OutputRecord.reset with state := .playing, ramp := 16 };
    (program 0x41 station).subscription = some { station := 2, source := .b } ∧ (program 0x41 station).state = .filling
      ∧ (program 0x41 (sounding station)).target = some (some { station := 2, source := .b })
      ∧ (let s := (sounding (receiving .running .valid fun r => { r with target := some none }));
        (program 0x41 s).target = none ∧ (program 0x41 s).state = .running ∧ (program 0x41 s).ring = s.sr.ring)
      ∧ (after (.zoneSet 3 [0x00, 0x01, 0, 0, 0, 0x01]) (sounding (receiving .running .valid fun r => { r with target := some none }))).sr.state =
        .idle := by
  decide +kernel

/-- RoleMapsOverride: a request in range and one out of range, with room in the queue, and an output that leaves RETIRED. -/
theorem witness_role_map :
    station.takes = true ∧ addressedTo station.own [0x01, 0x00, 0x00, 0x02] = true ∧ station.hasRoom = true
      ∧ (roleMapFields [0x01, 0x00, 0x00, 0x02]).isSome = true ∧ roleMapFields [0x01, 0x04, 0x00, 0x02] = none
      ∧ (station.output fun o => { o with state := .retired, overload := 4 }).om.outputs[(0 : OutputNo)].state = .retired := by decide +kernel

/-- InputClocksAreFollowed and SyncIsWatched: a powered input without a clock, with one, at the end of ACQUIRING, about to lose sync, and with a
block in progress. -/
theorem witness_inputs :
    station.inputsPowered = true ∧ (station.ir.get .a).state = .noSignal
      ∧ (let s := station.input fun r => { r with state := .acquiring, rateClass := some .r48, steady := 7 }
        s.inputsPowered = true ∧ (s.ir.get .a).state = .acquiring ∧ (s.ir.get .a).rateClass = some .r48 ∧ 7 ≤ (s.ir.get .a).steady)
      ∧ (let s := station.input fun r => { r with state := .packed, withoutSync := 1, inProgress := true }
        s.inputsPowered = true ∧ (s.ir.get .a).state ≠ .noSignal ∧ (s.ir.get .a).withoutSync = 1 ∧ (s.ir.get .a).patternSeen = false
          ∧ (s.ir.get .a).inProgress = true) := by decide +kernel

/-- An input that enters PCM or PACKED by ACQUIRING_END: the round still ends in ACQUIRING, so that its capture is silence, the converter's memory
stays silence, and the block in the buffer is kept; the round after it is captured (R98, R99, R101). -/
theorem test_entry_ahead_of_the_round_begin :
    let entered (run : Nat) : State := after (.acquiringEnd .a)
      (station.input fun r => { r with
        state := .acquiring, rateClass := some .r48, steady := 7, syncRun := run, patternSeen := true, blocks := [[1]] });
    let next (s : State) : State := after (.roundBegin (markOf 0 9 3 12288)) s;
    (entered 2).ir.recA.state = .packed ∧ (next (entered 2)).sp.recA.capture.content = .silence ∧ (next (entered 2)).ir.recA.blocks = [[1]]
      ∧ (next (next (entered 2))).sp.recA.capture = { content := .packed [1], usable := true }
      ∧ (next (entered 0)).ir.recA.history = ConverterHistory.silence := by decide +kernel

/-- A round LOCKED throughout has 48 local samples although it ends in a re-base, and one of ACQUIRING has those of the counter (R99). -/
theorem test_local_samples :
    (station.localRound 12000).samples = 48
      ∧ ((station.clock fun r => { r with discipline := .acquiring }).localRound 12287).samples = 47 := by decide +kernel

/-- A packed block with a counter and a layout. -/
def block (counter : Byte) (layout : RoleSet) : PackedBlock :=
  { counter := counter, layout := layout, dialogue := 0, rangeGain := 0, channels := Vector.replicate 8 none }

/-- A change of the decoder of the station. -/
def station.decoder (f : Decoder → Decoder) : State := { station with pd := f Decoder.reset }

/-- BadBlocksAreConcealed: the other states, with the layouts confirmed, candidate and new, and CONCEAL at its third and fourth bad block. -/
theorem witness_decoder_states :
    (station.decoder fun d => { d with state := .hunt }).pd.state = .hunt
      ∧ (let s := station.decoder fun d => { d with state := .confirm, reference := some (7, 3) };
        s.pd.state = .confirm ∧ s.pd.reference = some (7, 3) ∧ (s.decode (.block (some (block 8 3)))).pd.state = .locked
          ∧ (s.decode (.block (some (block 9 3)))).pd.state = .confirm)
      ∧ (let s := station.decoder fun d => { d with state := .locked, confirmed := some 3, candidate := some 7 };
        (s.decode (.block (some (block 8 3)))).pd.candidate = none ∧ (s.decode (.block (some (block 8 7)))).pd.confirmed = some 7
          ∧ (s.decode (.block (some (block 8 1)))).pd.candidate = some 1)
      ∧ (let s := station.decoder fun d => { d with state := .conceal, conceal := 2, lastGood := some Frame.silence };
        s.pd.lastGood = some Frame.silence ∧ (s.decode (.block none)).pd.state = .conceal)
      ∧ (let s := station.decoder fun d => { d with state := .conceal, conceal := 3, lastGood := some Frame.silence };
        (s.decode (.block none)).pd.state = .hunt) := by decide +kernel

/-- BadBlocksAreConcealed: LOCKED with a last good block, and CONCEAL. -/
theorem witness_decoder :
    (let s : State := { station with pd := { Decoder.reset with state := .locked, lastGood := some Frame.silence } };
      s.pd.state = .locked ∧ s.pd.lastGood = some Frame.silence)
      ∧ (let s : State := { station with pd := { Decoder.reset with state := .conceal, conceal := 1, lastGood := some Frame.silence } }
        s.pd.state ≠ .locked ∧ (s.decode (.block none)).pd.state = .conceal) := by decide +kernel

/-- EveryChannelReachesARole: a channel of a layout, with and without its own role in the effective set. -/
theorem witness_channel : hasRole 0xFF .bl = true ∧ (1 : RoleSet) ≠ 0 ∧ hasRole 1 .bl = false := by decide +kernel

/-- WatchdogLosesTheProgram: RUNNING at the limit, in RAMP and in HARD mode. -/
theorem witness_watchdog (cut : CutMode) :
    let s : State := { station with
      sr := { Receiver.reset with state := .running, watchdog := 3 }
      cl := { station.cl with values := { station.cl.values with cutMode := cut } } }
    s.joined = true ∧ s.sr.state = .running ∧ s.cl.values.watchdogLimit ≤ s.sr.watchdog + 1 ∧ s.sr.target = none := by
  cases cut <;> decide +kernel

/-- WatchdogLosesTheProgram: a PACKED program with the decoder at its third concealed block, and in LOCKED. -/
theorem witness_watchdog_packed (locked : Bool) :
    let s : State := { station with
      sr := { Receiver.reset with state := .running, watchdog := 3, programKind := some .packed }
      pd := { Decoder.reset with state := if locked then .locked else .conceal, conceal := if locked then 0 else 3 } };
    s.joined = true ∧ s.cl.values.watchdogLimit ≤ s.sr.watchdog + 1 ∧ s.sr.target = none ∧ s.sr.programKind = some .packed
      ∧ s.pd.state = (if locked then .locked else .conceal)
      ∧ (after .watchdogExpiry s).pd.state = (if locked then .conceal else .hunt) := by
  cases locked <;> decide +kernel

/-- RoundBeginSwapsAndSlews: an absence counted at the coming round begin, whose rebuild waits for the round begin after it. -/
theorem witness_swap :
    let heard := after (.presence 3 [0x00, 0x01, 0x00, 0x00, 0x10, 0xF0, 0xF0, 0x3C]) station;
    let s : State := { heard with pt := { heard.pt with entries := heard.pt.entries.map fun e => e.map fun x => { x with silence := 191 } } };
    let t := after (.peerAbsence 3) s;
    s.joined = true ∧ s.mm.swapped = false ∧ t.mm.swapped = true
      ∧ (after (.roundBegin (markOf 0 9 3 12288)) t).mm.active = t.mm.active := by decide +kernel

/-- RoundBeginSwapsAndSlews: a fault at the coming round begin that brings the last output down, so that the held switch rebuilds. -/
theorem witness_swap_at_a_fault :
    let s := { (station.output fun o => { o with state := .playing, ramp := 16 }) with
      sr := { Receiver.reset with state := .running, programKind := some .packed, target := some (some { station := 2, source := .b }) } };
    let t := after (.outputFault 0 .assertsAheadOfRoundBegin) s;
    s.joined = true ∧ s.mm.swapped = false ∧ t.mm.swapped = true ∧ t.mm.dirty = true
      ∧ (after (.roundBegin (markOf 0 9 3 12288)) t).mm.active = t.mm.active
      ∧ (after (.roundBegin (markOf 0 9 3 12288)) t).mm.dirty = true := by decide +kernel

/-- OutputTimersEnd, clause by clause. -/
theorem witness_output_timers :
    station.joined = true ∧ station.quiet = true
      ∧ (let o := (station.output fun o => { o with state := .rampUp, ramp := 15 }).om.outputs[(0 : OutputNo)]
        o.state = .rampUp ∧ 15 ≤ o.ramp)
      ∧ (let o := (station.output fun o => { o with state := .rampDown, ramp := 1 }).om.outputs[(0 : OutputNo)]
        o.state = .rampDown ∧ o.ramp ≤ 1)
      ∧ (after (.rampUpComplete 0) (station.output fun o => { o with state := .rampUp, ramp := 16 })).om.outputs[(0 : OutputNo)].state = .playing
      ∧ (after (.rampDownComplete 0) (station.output fun o => { o with state := .rampDown, ramp := 0 })).om.outputs[(0 : OutputNo)].state = .silent
      ∧ (let o := (station.output fun o => { o with overload := 3, decay := 4095 }).om.outputs[(0 : OutputNo)]
        1 ≤ o.overload ∧ o.overload ≤ 3 ∧ 4095 ≤ o.decay)
      ∧ (let s := { (station.output fun o => { o with state := .rampDown, ramp := 1 }) with
            sr := { Receiver.reset with target := some (some { station := 2, source := .b }) } }
        s.sr.target = some (some { station := 2, source := .b })
          ∧ ∀ j : OutputNo, (after (.rampDownComplete 0) s).om.outputs[j].state.sounding = false) := by decide +kernel

/-- A fault at the round begin of the decay step leaves the decay count 0 and the recovery count 250 after either order (R136, R137). -/
theorem test_fault_at_the_decay_step :
    let s := station.output fun o => { o with state := .silent, overload := 1, decay := 4095 };
    let next (x : State) : State := after (.roundBegin (markOf 0 9 3 12288)) x;
    let first := (next (after (.outputFault 0 .assertsAheadOfRoundBegin) s)).om.outputs[(0 : OutputNo)];
    let last := (after (.outputFault 0 .assertsAtRoundBegin) (next s)).om.outputs[(0 : OutputNo)];
    first.decay = 0 ∧ first.recovery = 250 ∧ first.taken = OutputSteps.none ∧ last.decay = 0 ∧ last.recovery = 250 := by decide +kernel

/-- The decay and recovery clauses of RoundBeginSwapsAndSlews: counts at 4095 and below it, made already, and in FAULTED. -/
theorem witness_decay (taken : Bool) :
    let next (o : OutputRecord) : OutputRecord :=
      (after (.roundBegin (markOf 0 9 3 12288)) (station.setOutput 0 { o with taken := { ramp := false, decay := taken, recovery := taken } })).om.outputs[
        (0 : OutputNo)];
    let o : OutputRecord := { OutputRecord.reset with overload := 3, decay := 4095, state := .faulted, recovery := 2 };
    station.pt.mode ≠ .joining ∧ (next o).overload = (if taken then 3 else 2) ∧ (next o).recovery = (if taken then 2 else 1)
      ∧ (next { o with decay := 4094 }).decay = (if taken then 4094 else 4095) := by
  cases taken <;> decide +kernel

/-- FaultsAreCounted, clause by clause: the third and the fourth fault, and the end of recovery with the line asserted and released. -/
theorem witness_faults :
    station.inReset = false ∧ station.pins.faultLines[(0 : OutputNo)] = false
      ∧ (station.output fun o => { o with state := .silent, overload := 2 }).om.outputs[(0 : OutputNo)].state.countsFaults = true
      ∧ station.om.outputs[(0 : OutputNo)].state.countsFaults = false ∧ station.om.outputs[(0 : OutputNo)].recovered = 0
      ∧ (station.output fun o => { o with overload := 1, recovered := 1 }).om.outputs[(0 : OutputNo)].recovered ≠ 0
      ∧ (after (.outputFault 0 .assertsAheadOfRoundBegin) (station.output fun o => { o with recovered := 2 })).om.outputs[(0 : OutputNo)].overload = 1
      ∧ (after (.outputFault 0 .assertsAheadOfRoundBegin) (station.output fun o => { o with recovered := 1 })).om.outputs[(0 : OutputNo)].overload = 0
      ∧ (after (.outputFault 0 .assertsAtRoundBegin) (station.output fun o => { o with overload := 1, recovered := 1 })).om.outputs[(0 : OutputNo)].state =
        .faulted
      ∧ (let s := { (station.output fun o => { o with state := .faulted, overload := 1, recovery := 1 }) with
            pt := { station.pt with mode := .serving }, cr := { held := 0x000010, statusDue := false } };
        s.lc.queue = [] ∧ s.cr.holds (.outputFaulted 0) = true ∧ s.pt.firstOffered = true
          ∧ (after (.faultRecoveryEnd 0) s).om.outputs[(0 : OutputNo)].state = .off)
      ∧ (let s := station.output fun o => { o with state := .faulted, overload := 3, recovery := 1 }
        s.joined = true ∧ s.om.outputs[(0 : OutputNo)].state = .faulted ∧ s.om.outputs[(0 : OutputNo)].recovery ≤ 1
          ∧ (after (.faultRecoveryEnd 0) (s.driveFaultLine 0 true)).om.outputs[(0 : OutputNo)].state = .retired) := by decide +kernel

/-- SupplyAndMuteGateTheOutputs and CarrierLoadsTheWidths: NORMAL and LOW, and a compaction that waits. -/
theorem witness_supply :
    station.inReset = false ∧ station.quiet = true ∧ station.sm = .normal
      ∧ (let s := { (station.store fun p => { p with compaction := some compaction }) with sm := .low }
        s.sm = .low ∧ s.ps.recoveryEnded = true ∧ s.ps.engine = .idle ∧ s.ps.reads = [] ∧ s.ps.compaction = some compaction) := by decide +kernel

/-- TunerRequestsStart and RecallsReadTheStore: an accepted TUNE at the highest channel, SEEK, SCAN and RECALL of preset 30, with and without an
operation in flight, and a full read list. -/
theorem witness_tuner_requests :
    station.takes = true ∧ addressedTo station.own [0x01, 0x03] = true ∧ station.cl.values.tunerFitted = true
      ∧ requesterZone [0x01, 0x03] = some 3 ∧ station.tb.holders = [] ∧ station.pt.mode ≠ .standby ∧ station.hasRoom = true
      ∧ tuneFields [0x01, 0x03, 0x00, 0x01, 0xA5, 0xE0] = some (.fm, 108000) ∧ validChannel .a .fm 108000 = true
      ∧ directionAt [0x01, 0x03, 0x01] = some .down ∧ presetAt [0x01, 0x03, 0x1E] = some 29 ∧ presetAt [0x01, 0x03, 0x1F] = none
      ∧ station.tb.op = none ∧ station.ps.reads.length < 16
      ∧ (let s := station.tuner fun t => { t with op := some (operation .scan .ending), holders := [3, 1] };
        s.tb.op = some (operation .scan .ending) ∧ s.hasRoom = true ∧ s.tb.holders.head? = some 3
          ∧ hasReply (after (.seek 2 [0x01, 0x03, 0x01]) s) .scan .aborted = true)
      ∧ 16 ≤ (station.store fun p => { p with reads := List.replicate 16 { number := 0, origin := .abandoned } }).ps.reads.length := by decide +kernel

/-- TunerRequestsAreTested: each of the four tests failed. -/
theorem witness_tuner_tests :
    { station with cl := { station.cl with values := ConfigValues.default } : State }.cl.values.tunerFitted = false
      ∧ requesterZone [0x01, 0x04] = none
      ∧ (station.tuner fun t => { t with holders := [2] }).tb.holders ≠ []
      ∧ (station.tuner fun t => { t with holders := [2] }).tb.holders.head? ≠ requesterZone [0x01, 0x03]
      ∧ { station with pt := { station.pt with mode := .standby } : State }.takes = true := by decide +kernel

/-- RecallsReadTheStore: the completion of a read for a RECALL, with no record, with one off the grid and with one on it, and of an abandoned read. -/
theorem witness_recall_reads :
    let reading : State := { (station.store fun p => { p with readInService := true, reads := [{ number := 0, origin := .recall }] }) with
      tb := { Tuner.reset with op := some (operation .recall .awaiting) } };
    let stored (freq : BitVec 24) : State := { reading with ps := { reading.ps with
      index := reading.ps.index.set 0 (some { sector := 0, slot := 0 })
      sectors := writeSlot reading.ps.sectors { sector := 0, slot := 0 } { RecordSlot.erased with freq := freq, band := 0 } } };
    reading.ps.readInService = true ∧ reading.ps.reads = [{ number := 0, origin := .recall }] ∧ reading.hasRoom = true
      ∧ hasReply (after .readComplete reading) .presetRecall .empty = true
      ∧ hasReply (after .readComplete (stored 87601)) .presetRecall .badValue = true
      ∧ (after .readComplete (stored 87600)).tb.freq = 87600
      ∧ (station.store fun p => { p with readInService := true, reads := [{ number := 0, origin := .abandoned }] }).ps.reads =
        [{ number := 0, origin := .abandoned }] := by decide +kernel

/-- TunerTimersEnd and GatesAreMeasured: the last round of a settle time, an unheld tuner, and a gate with and without an operation. -/
theorem witness_tuner_timers :
    (let s := station.tuner fun t => { t with state := .settling, phase := 1 };
      s.joined = true ∧ s.quiet = true ∧ s.tb.state = .settling ∧ s.tb.phase ≤ 1)
      ∧ (let s := station.tuner fun t => { t with state := .listening, unheld := 999 }
        s.tb.state ≠ .off ∧ s.tb.holders = [] ∧ s.tb.op = none ∧ 999 ≤ s.tb.unheld)
      ∧ (let s := station.tuner fun t => { t with state := .measuring, phase := 1, op := some (operation .tune .tuning) }
        s.joined = true ∧ s.tb.state = .measuring ∧ s.tb.phase ≤ 1 ∧ s.tb.op = some (operation .tune .tuning) ∧ s.hasRoom = true
          ∧ (s.rt.counter + 12288 - s.tb.gate.counterStart).toNat ≠ 0) := by decide +kernel

/-- SETTLE_END and GATE_CLOSE make the step of the coming round begin, which counts neither the gate nor the phase that they begin (R147): from the
take in round m the measurement is formed at the round begin of round m + 9. -/
theorem test_phase_is_counted_once :
    let next (x : State) : State := after (.roundBegin (markOf 0 9 3 12288)) x;
    let s := next (after .settleEnd (station.tuner fun t => { t with state := .settling, phase := 1, holders := [0] }));
    let l := next (after (.gateClose 12288 { edges := 10700, levels := [60], pilot := true })
      (station.tuner fun t => { t with state := .measuring, phase := 1, holders := [0] }));
    s.tb.state = .measuring ∧ s.tb.phase = 4 ∧ s.tb.gate.counterStart = s.rt.counter ∧ (next s).tb.phase = 3
      ∧ l.tb.state = .listening ∧ l.tb.gate.left = 4 ∧ (next l).tb.gate.left = 3 := by decide +kernel

/-- SeeksStep: an accepted channel, and a rejected one. -/
theorem witness_seek (level : Nat) :
    let s := station.tuner fun t => { t with op := some (operation .seek .stepping), level := level }
    s.tb.op = some (operation .seek .stepping) ∧ s.hasRoom = true ∧ (operation .seek .stepping).target.isSome = true := by
  simp [station.tuner, operation, State.hasRoom, station, LinkController.reset, State.reset, State.resetWith]

/-- SeeksStep: a SCAN at an accepted channel, at the highest one, and at its end; a SEEK back at its start. -/
theorem witness_scan :
    let s := station.tuner fun t => { t with
      op := some (operation .scan .stepping), level := 60, freq := 87600, fmList := { entries := [⟨87500, 60⟩], complete := false } };
    s.tb.op = some (operation .scan .stepping) ∧ (operation .scan .stepping).target.isSome = true
      ∧ (∀ e ∈ (s.tb.list s.tb.band).entries, e.freq < s.tb.freq)
      ∧ ((s.actOnMeasurement 0).tb.list .fm).entries = [⟨87500, 60⟩, ⟨87600, 60⟩]
      ∧ (({ s with tb := { s.tb with freq := 108000 } }.actOnMeasurement 0).tb.list .fm).complete = true
      ∧ (operation .scan .ending).stage = .ending ∧ (operation .seek .returning).stage = .returning := by decide +kernel

theorem witness_station_list : StationList.wf { entries := [⟨87500, 60⟩], complete := false } := by simp [StationList.wf]

/-- StoreRequestsAreAccepted and StoreRequestsAreTested: a request in range, one that the last protected preset refuses, the queue at three and four
entries, and an engine that may begin with a slot to append to. -/
theorem witness_store_requests :
    (let p : List Byte := [0x01, 0x00, 0x01, 0x01, 0x41];
      addressedTo station.own p = true ∧ requesterZone p = some 0 ∧ presetAt p = some 0 ∧ nameAt p = some [0x41]
        ∧ nameAt [0x01, 0x00, 0x01, 0x09] = none)
      ∧ station.cl.values.fixedCount < (0 : Fin 30).val + 1 ∧ station.ps.queue.length < 4
      ∧ (station.tuner fun t => { t with state := .listening }).tb.state = .listening
      ∧ 4 ≤ (station.store fun p => { p with queue := List.replicate 4 (.clear 0 { station := 3, zone := 0 }) }).ps.queue.length
      ∧ (let s := station.store fun p => { p with sectors := p.sectors.set 0 { Sector.erased with generation := 1, mark := 0xA5 } }
        s.engineMayBegin = true ∧ s.ps.compaction = none ∧ s.ps.queue = [] ∧ s.ps.appendRef = some { sector := 0, slot := 0 }) := by
  decide +kernel

/-- StoreRequestsAreAccepted: an engine that may begin programs a STORE and a CLEAR that names a record, answers a CLEAR that names none, and with a
full sector begins a compaction. -/
theorem witness_store_programs :
    let active (f : Sector → Sector) (i : Option SlotRef) : State :=
      station.store fun p => { p with
        sectors := p.sectors.set 0 (f { Sector.erased with generation := 1, mark := 0xA5 }), index := p.index.set 0 i }
    let clear (s : State) : State := after (.presetClear 3 [0x01, 0x00, 0x01]) s;
    let record (s : State) : Option RecordSlot := s.ps.current.map (·.record);
    let full (x : Sector) : Sector := { x with slots := x.slots.set 31 { RecordSlot.erased with state := 0x1F } };
    record (clear (active id (some { sector := 1, slot := 0 }))) =
        some { RecordSlot.erased with state := stateByteLive, number := 1, sequence := 0, band := 1, cleared := 0, nameLength := 0 }
      ∧ (clear (active id none)).ps.queue = [] ∧ hasReply (clear (active id none)) .presetClear .done = true
      ∧ (clear (active full (some { sector := 0, slot := 31 }))).ps.engine = .running .erasing
      ∧ record (after (.presetStore 3 [0x01, 0x00, 0x01, 0x01, 0x41])
          { active id none with tb := { Tuner.reset with state := .listening, freq := 87500 } }) =
        some { RecordSlot.erased with
          state := stateByteLive, number := 1, sequence := 0, band := 0, freq := 87500, nameLength := 1
          name := #v[0x41, 0xFF, 0xFF, 0xFF, 0xFF, 0xFF, 0xFF, 0xFF] } := by decide +kernel

/-- ReadsAreServed: each engine state, and a read in service. -/
theorem witness_reads :
    station.ps.engine = .idle ∧ station.takes = true ∧ station.hasRoom = true
      ∧ (let s := station.store fun p => { p with
            engine := .suspended .erasing, readInService := true
            reads := [{ number := 0, origin := .presetRead { station := 3, zone := 0 } }] }
        s.ps.engine = .suspended .erasing ∧ s.ps.reads ≠ [] ∧ s.ps.readInService = true ∧ s.hasRoom = true) := by decide +kernel

/-- RecordsAreProgrammed and CompactionSteps: the steps in progress. -/
theorem witness_steps :
    (let s := station.store fun p => { p with engine := .running .programming, current := some programming };
      s.ps.current = some programming ∧ s.ps.engine = .running .programming ∧ programming.previous.isSome = true ∧ s.hasRoom = true
        ∧ programming.record.state = stateByteLive)
      ∧ (let s := station.store fun p => { p with engine := .running .superseding, current := some programming }
        s.ps.engine = .running .superseding ∧ s.ps.queue = [] ∧ s.ps.compaction = none)
      ∧ (let s := { (station.store fun p => { p with engine := .running .copying, compaction := some compaction }) with sm := .low }
        s.ps.compaction = some compaction ∧ s.sm = .low
          ∧ compaction.copyList[compaction.copied]? = some { sector := 0, slot := 0 }) := by decide +kernel

/-- QueriesAreAnswered: both requests in range and out of range, on a quiet station. -/
theorem witness_queries :
    station.takes = true ∧ station.quiet = true ∧ station.hasRoom = true ∧ addressedTo station.own [0x01, 0x00, 0x01, 0x03] = true
      ∧ listReadFields [0x01, 0x00, 0x01, 0x03] = some (.am, 3) ∧ listReadFields [0x01, 0x00, 0x01, 0x04] = none := by decide +kernel

/-- ResetEndsAndTheImageIsRead and RecoveryEndsAndJoiningStarts: the causes of reset in each combination, an image to read, a second and an invalid
one, a store to recover, and a station about to join. -/
theorem witness_startup :
    State.reset.rc.powerOn = true ∧ State.reset.rc.nReset = false ∧ station.cl.imageRead = true ∧ readImage [] = none
      ∧ (let s := after (.leaveReset .powerOn 1) State.reset
        s.inReset = false ∧ s.cl.imageRead = false ∧ s.ps.recoveryEnded = false ∧ s.ps.queue = [] ∧ s.ps.compaction = none
          ∧ (let j := after .recoveryEnd (after (.imageRead image) s)
            j.cl.imageRead = true ∧ j.cl.valid = true ∧ j.ps.recoveryEnded = true ∧ j.cl.joined = false))
      ∧ (after (.reset .nReset) State.reset).rc = { powerOn := true, nReset := true }
      ∧ (after (.reset .nReset) station).rc = { powerOn := false, nReset := true } := by decide +kernel

/-- JoinWindowEnds: the last round of the join window. -/
theorem witness_join_window :
    let s : State := { station with pt := { station.pt with mode := .joining, joinCount := 79 } }
    s.joined = true ∧ s.pt.mode = .joining ∧ 79 ≤ s.pt.joinCount := by decide +kernel

/-- SentFormatsAreRead: a mark with D 255, the last part of a run in slot 23, a message of 24 bytes, a body of an unknown kind, and a record in
standby. -/
theorem witness_formats :
    (255 < 256) ∧ (List.replicate 144 (0 : Byte)).length = 144 ∧ 3 < widthOf .packed ∧ (23 : SlotNo).val - 3 + widthOf .packed ≤ 24
      ∧ (encodePayload (.zoneState (Vector.replicate 4 ZoneRecord.reset))).length ≤ 24
      ∧ bodyIsVoid (withCheck [160, 0]) = false ∧ 20 ≤ ((withCheck [160, 0]).headD 0).toNat / 8 := by decide +kernel

theorem witness_zone_record : ZoneRecord.reset.wf := by simp [ZoneRecord.wf, ZoneRecord.reset]

end Sys2Proof.Tests
end

section
/-! Proofs about the clock discipline (chapter 1): the equations of the discipline step in ACQUIRING and LOCKED, the discipline that a round
begin and a takeover timer expiry leave, and the two obligations assembled from them. -/

namespace Sys2Proof.Machine

/-! ## The good-mark run after a mark -/

theorem runAfter_good {e : Int} (he : e.natAbs ≤ 64) (run : Nat) : runAfter run (some e) = run + 1 := by
  simp [runAfter, goodError, he]

theorem runAfter_notGood {e : Int} (he : ¬ e.natAbs ≤ 64) (run : Nat) : runAfter run (some e) = 0 := by
  simp [runAfter, goodError, he]

theorem runAfter_rebase (run : Nat) : runAfter run none = 0 := rfl

/-! ## The entries to a discipline state -/

@[simp] theorem RoundTimer.acquire_discipline (rt : RoundTimer) (run : Nat) : (rt.acquire run).discipline = .acquiring := rfl

@[simp] theorem RoundTimer.acquire_goodRun (rt : RoundTimer) (run : Nat) : (rt.acquire run).goodRun = run := rfl

@[simp] theorem RoundTimer.lock_discipline (rt : RoundTimer) : rt.lock.discipline = .locked := rfl

@[simp] theorem RoundTimer.lock_goodRun (rt : RoundTimer) : rt.lock.goodRun = 0 := rfl

@[simp] theorem RoundTimer.holdOver_discipline (rt : RoundTimer) (fresh : Bool) : (rt.holdOver fresh).discipline = .holdover := rfl

@[simp] theorem RoundTimer.holdOver_goodRun (rt : RoundTimer) (fresh : Bool) : (rt.holdOver fresh).goodRun = 0 := rfl

@[simp] theorem RoundTimer.holdOver_holdover (rt : RoundTimer) (fresh : Bool) : (rt.holdOver fresh).holdover = 0 := rfl

/-! ## ACQUIRING (R13) -/

theorem RoundTimer.disciplineStep_acquiring {rt : RoundTimer} (h : rt.discipline = .acquiring) (error : Option Int) :
    rt.disciplineStep error =
      if 16 ≤ runAfter rt.goodRun error then rt.lock else rt.acquire (runAfter rt.goodRun error) := by
  simp only [RoundTimer.disciplineStep, h]

theorem RoundTimer.disciplineStep_acquiring_counts {rt : RoundTimer} (h : rt.discipline = .acquiring) {e : Int} (he : e.natAbs ≤ 64)
    (hrun : rt.goodRun + 1 < 16) : rt.disciplineStep (some e) = rt.acquire (rt.goodRun + 1) := by
  rw [RoundTimer.disciplineStep_acquiring h, runAfter_good he, if_neg (by omega)]

theorem RoundTimer.disciplineStep_acquiring_locks {rt : RoundTimer} (h : rt.discipline = .acquiring) {e : Int} (he : e.natAbs ≤ 64)
    (hrun : ¬ rt.goodRun + 1 < 16) : rt.disciplineStep (some e) = rt.lock := by
  rw [RoundTimer.disciplineStep_acquiring h, runAfter_good he, if_pos (by omega)]

theorem RoundTimer.disciplineStep_acquiring_notGood {rt : RoundTimer} (h : rt.discipline = .acquiring) {e : Int}
    (he : ¬ e.natAbs ≤ 64) : rt.disciplineStep (some e) = rt.acquire 0 := by
  rw [RoundTimer.disciplineStep_acquiring h, runAfter_notGood he, if_neg (by decide)]

theorem RoundTimer.disciplineStep_acquiring_rebase {rt : RoundTimer} (h : rt.discipline = .acquiring) :
    rt.disciplineStep none = rt.acquire 0 := by
  rw [RoundTimer.disciplineStep_acquiring h, runAfter_rebase, if_neg (by decide)]

theorem RoundTimer.expiryStep_acquiring {rt : RoundTimer} (h : rt.discipline = .acquiring) :
    rt.expiryStep = { rt with goodRun := 0 } := by
  simp only [RoundTimer.expiryStep, h]

/-! ## LOCKED (R14) -/

theorem RoundTimer.disciplineStep_locked_large {rt : RoundTimer} (h : rt.discipline = .locked) {e : Int} (he : 512 < e.natAbs) :
    rt.disciplineStep (some e) = rt.acquire 0 := by
  simp [RoundTimer.disciplineStep, h, largeError, he]

theorem RoundTimer.disciplineStep_locked_notLarge {rt : RoundTimer} (h : rt.discipline = .locked) {e : Int}
    (he : ¬ 512 < e.natAbs) : rt.disciplineStep (some e) = rt := by
  simp [RoundTimer.disciplineStep, h, largeError, he]

theorem RoundTimer.disciplineStep_locked_rebase {rt : RoundTimer} (h : rt.discipline = .locked) :
    rt.disciplineStep none = rt.holdOver false := by
  simp only [RoundTimer.disciplineStep, h]

theorem RoundTimer.expiryStep_locked {rt : RoundTimer} (h : rt.discipline = .locked) : rt.expiryStep = rt.holdOver true := by
  simp only [RoundTimer.expiryStep, h]

/-! ## The commands -/

/-- A round begin leaves the discipline state and both counts as the discipline step at its mark gives them. -/
theorem exec_roundBegin_discipline {s : State} (hj : s.joined = true) (r : RoundBegin) :
    ∃ t, exec (.roundBegin r) s = .next t
      ∧ t.rt.discipline = (s.rt.disciplineStep (s.markError r)).discipline
      ∧ t.rt.goodRun = (s.rt.disciplineStep (s.markError r)).goodRun
      ∧ t.rt.holdover = (s.rt.disciplineStep (s.markError r)).holdover :=
  ⟨_, exec_roundBegin r hj, s.roundBegin_discipline r⟩

/-- An expiry on a quiet link leaves the discipline state and both counts as the step of the expiry gives them: the mark that the station
sends touches none of them. -/
theorem exec_takeoverTimerExpiry_quiet_discipline {s : State} (ht : s.timerRuns = true) :
    ∃ t, exec (.takeoverTimerExpiry .quiet) s = .next t
      ∧ t.rt.discipline = s.rt.expiryStep.discipline
      ∧ t.rt.goodRun = s.rt.expiryStep.goodRun
      ∧ t.rt.holdover = s.rt.expiryStep.holdover := by
  refine ⟨_, (exec_takeoverTimerExpiry ht .quiet).trans (congrArg _ (if_pos rfl)), ?_⟩
  simp

end Sys2Proof.Machine

/-! ## The obligations -/

namespace Sys2Proof.Proofs

open Sys2Proof.Machine

/-- Settles O5, by the cases of the mark: good below the limit, good at the limit, not good, and a re-base. -/
theorem acquiringCountsGoodMarks : Obligations.AcquiringCountsGoodMarks := by
  intro s hj hd
  refine ⟨fun r => ?_, fun ht => ?_⟩
  · obtain ⟨t, hexec, hdisc, hrun, -⟩ := exec_roundBegin_discipline hj r
    refine ⟨t, hexec, ?_⟩
    rw [hdisc, hrun]
    cases s.markError r with
    | none => simp [RoundTimer.disciplineStep_acquiring_rebase hd]
    | some e =>
      by_cases hgood : e.natAbs ≤ 64
      · by_cases hlimit : s.rt.goodRun + 1 < 16
        · simp [hgood, hlimit, RoundTimer.disciplineStep_acquiring_counts hd hgood hlimit]
        · simp [hgood, hlimit, RoundTimer.disciplineStep_acquiring_locks hd hgood hlimit]
      · simp [hgood, RoundTimer.disciplineStep_acquiring_notGood hd hgood]
  · obtain ⟨t, hexec, hdisc, hrun, -⟩ := exec_takeoverTimerExpiry_quiet_discipline ht
    rw [RoundTimer.expiryStep_acquiring hd] at hdisc hrun
    exact ⟨t, hexec, hdisc.trans hd, hrun⟩

/-- Settles O6, by the cases of the mark: a large error, any other error, and a re-base. -/
theorem lockedHoldsOrMoves : Obligations.LockedHoldsOrMoves := by
  intro s hj hd
  refine ⟨fun r => ?_, fun ht => ?_⟩
  · obtain ⟨t, hexec, hdisc, hrun, hcount⟩ := exec_roundBegin_discipline hj r
    refine ⟨t, hexec, ?_⟩
    rw [hdisc, hrun, hcount]
    cases s.markError r with
    | none => simp [RoundTimer.disciplineStep_locked_rebase hd]
    | some e =>
      by_cases hlarge : 512 < e.natAbs
      · simp [hlarge, RoundTimer.disciplineStep_locked_large hd hlarge]
      · simp [hlarge, RoundTimer.disciplineStep_locked_notLarge hd hlarge, hd]
  · obtain ⟨t, hexec, hdisc, hrun, hcount⟩ := exec_takeoverTimerExpiry_quiet_discipline ht
    rw [RoundTimer.expiryStep_locked hd] at hdisc hrun hcount
    exact ⟨t, hexec, hdisc, hrun, hcount⟩

end Sys2Proof.Proofs
end

section
/-! Proofs about the slot table (sections 4.1 and 4.2): a RELEASE frees the run of a stream that belongs to its sender, and nothing else (R52). -/

namespace Sys2Proof.Machine

/-! ## The slot table at a RELEASE -/

theorem takeRelease_own {sender : Station} {stream : Stream} (h : stream.station = sender) (st : SlotTable) :
    (takeRelease st sender (some stream)).table = freeRuns st (· == stream) := by
  simp [takeRelease, h]

theorem takeRelease_foreign {sender : Station} {stream : Stream} (h : stream.station ≠ sender) (st : SlotTable) :
    (takeRelease st sender (some stream)).table = st := by
  simp [takeRelease, h]

theorem takeRelease_none (st : SlotTable) (sender : Station) : (takeRelease st sender none).table = st := rfl

/-! ## The slots sent -/

/-- A station sends nothing in a slot that no run holds (R65). -/
theorem State.sends_free {s : State} {slot : SlotNo} (h : s.st[slot] = none) : s.sends slot = none := by
  simp only [State.sends, h]

/-! ## The position that a take ends -/

/-- The end of the mark puts no message in flight beside one that is in flight already. -/
theorem LinkController.endMark_inFlight {lc : LinkController} {m : Msg} (h : lc.inFlight = some m) : lc.endMark.inFlight = some m := by
  cases hmark : lc.markOnLink with
  | false => rwa [LinkController.endMark, hmark, if_neg (by decide)]
  | true =>
    rw [LinkController.endMark, hmark, if_pos rfl, h]
    exact h

/-- A position that is the station's own before the mark ends is its own after it. -/
theorem LinkController.endMark_isOwnPosition {lc : LinkController} {own : Station} {field : ArbField}
    (h : lc.isOwnPosition own field = true) : lc.endMark.isOwnPosition own field = true := by
  obtain ⟨m, hm⟩ := LinkController.isOwnPosition_flight h
  simpa only [LinkController.isOwnPosition, hm, LinkController.endMark_inFlight hm] using h

/-- Neither the offers at the end of an event nor the opening of the next position touches the send flag. -/
theorem State.closePosition_sendFlag (s : State) : s.closePosition.lc.sendFlag = s.lc.sendFlag :=
  calc s.closePosition.lc.sendFlag
    _ = s.closeEvent.lc.sendFlag := s.closeEvent.lc.openPosition_flags.1
    _ = s.lc.sendFlag := (s.closeEvent_offers (z := false) (.refl _ s.lc)).flags.1

/-! ## The take of a RELEASE -/

/-- The state that the take of a RELEASE leaves before its position closes. -/
def State.released (s : State) (sender : Station) (payload : List Byte) : State :=
  (s.endMark.takeMessage ⟨0, sender⟩).changeTable (takeRelease s.st sender (releaseField payload)) (s.endMark.ownClass0 sender)

theorem exec_release {s : State} (h : s.takes = true) (sender : Station) (payload : List Byte) :
    exec (.release sender payload) s = .next (s.released sender payload).closePosition :=
  congrArg Host.Outcome.next (State.onTake_takes h _ _)

theorem State.released_st (s : State) (sender : Station) (payload : List Byte) :
    (s.released sender payload).st = (takeRelease s.st sender (releaseField payload)).table :=
  State.changeTable_st _ _ _

/-- A change of the slot table leaves the peer entries: only a message writes them. -/
@[simp] theorem State.changeTable_peers (s : State) (change : TableChange) (own : Option Source) :
    (s.changeTable change own).pt.entries = s.pt.entries := by
  simp [State.changeTable]

theorem State.released_heard {s : State} {sender : Station} {payload : List Byte} {e : PeerEntry}
    (h : (s.released sender payload).pt.entries[sender] = some e) : e.silence = 0 := by
  rw [State.released, State.changeTable_peers] at h
  exact State.takeMessage_heard s.endMark ⟨0, sender⟩ e h

/-- The own RELEASE sets the send flag at its take, and the offers of the publisher and the modes leave it. -/
theorem State.released_sendFlag {s : State} {sender : Station} (h : s.lc.isOwnPosition s.own ⟨0, sender⟩ = true)
    (payload : List Byte) : (s.released sender payload).lc.sendFlag = true := by
  have htaken : (s.endMark.takeMessage ⟨0, sender⟩).lc.sendFlag = true :=
    LinkController.endPosition_sendFlag (LinkController.endMark_isOwnPosition h)
  have hkept := (State.changeTable_offers (s.endMark.takeMessage ⟨0, sender⟩)
    (takeRelease s.st sender (releaseField payload)) (s.endMark.ownClass0 sender) (.refl true _)).flags.1
  exact hkept.trans htaken

theorem State.released_changesOnly (s : State) (sender : Station) (payload : List Byte) :
    ChangesOnly (.st :: modeParts) s (s.released sender payload).closePosition := by
  intro p hp
  cases p
  case zt | sm | cl | rc | pins | draws | pending => simp [State.same, State.released]
  all_goals exact absurd (by decide) hp

end Sys2Proof.Machine

/-! ## The obligation -/

namespace Sys2Proof.Proofs

open Sys2Proof.Machine

/-- Settles O21, by the stream named: none in range, one of the sender, and one of another station. -/
theorem releasesFreeRuns : Obligations.ReleasesFreeRuns := by
  intro k p s ht
  refine ⟨_, exec_release ht k p, fun i => ?_, fun i => State.sends_free, fun e => State.released_heard,
    fun hown => ?_, s.released_changesOnly k p⟩
  · have hst : (s.released k p).closePosition.st = (takeRelease s.st k (releaseField p)).table := s.released_st k p
    rw [hst]
    cases releaseField p with
    | none => rw [takeRelease_none]
    | some stream =>
      by_cases hk : stream.station = k
      · simp only [takeRelease_own hk, hk, if_true, freeRuns_getElem]
      · simp only [takeRelease_foreign hk, hk, if_false]
  · rw [State.closePosition_sendFlag]
    exact State.released_sendFlag hown p

end Sys2Proof.Proofs
end

section
/-! Proofs about the packed decoder (section 7.5): what one handed block makes of the record, an equation for each row of the transition table, and
the obligation assembled from them (R108 to R114). -/

namespace Sys2Proof.Machine

/-! ## What a handed block leaves of the state -/

@[simp] theorem State.rebuildIf_mm_frame (s : State) (b : Bool) : (s.rebuildIf b).mm.frame = s.mm.frame := by
  cases b <;> rfl

@[simp] theorem State.decode_pd (s : State) (h : Handed) : (s.decode h).pd = (s.pd.onHanded h).decoder := by
  simp [State.decode]

@[simp] theorem State.decode_mm_frame (s : State) (h : Handed) : (s.decode h).mm.frame = (s.pd.onHanded h).frame := by
  simp [State.decode]

/-- DECODE_CONCEAL is held in CONCEAL alone (R115). -/
@[simp] theorem State.decode_holds_decodeConceal (s : State) (h : Handed) :
    (s.decode h).cr.holds .decodeConceal = ((s.pd.onHanded h).decoder.state == DecoderState.conceal) := by
  simp [State.decode, Conditions.put_holds]

/-- A confirmed layout rebuilds the pending matrix (R109, R111, R120). -/
theorem State.decode_dirty {s : State} {h : Handed} (hc : (s.pd.onHanded h).confirms = true) : (s.decode h).mm.dirty = true := by
  simp [State.decode, hc, State.rebuildIf, State.rebuild]

/-! ## No block to play: a muted round, and HUNT (R108, R114) -/

theorem Decoder.onHanded_noBlock {h : Handed} (hh : h = .muted ∨ h = .nothing) (d : Decoder) : d.onHanded h = Decoded.silent d := by
  rcases hh with rfl | rfl
  · rfl
  · rfl

theorem Decoder.onHanded_bad_hunt {d : Decoder} (h : d.state = .hunt) : d.onHanded (.block none) = Decoded.silent d := by
  simp only [Decoder.onHanded, Decoder.onBlock, h]

theorem Decoder.onHanded_valid_hunt {d : Decoder} (h : d.state = .hunt) (b : PackedBlock) :
    d.onHanded (.block (some b)) = Decoded.silent (d.refer b) := by
  simp only [Decoder.onHanded, Decoder.onBlock, h]

/-! ## CONFIRM (R109) -/

theorem Decoder.onHanded_bad_confirm {d : Decoder} (h : d.state = .confirm) :
    d.onHanded (.block none) = Decoded.silent { d with state := .hunt, reference := none } := by
  simp only [Decoder.onHanded, Decoder.onBlock, h]

theorem Decoder.onHanded_valid_confirm {d : Decoder} (h : d.state = .confirm) (b : PackedBlock) :
    d.onHanded (.block (some b)) = d.confirm b := by
  simp only [Decoder.onHanded, Decoder.onBlock, h]

theorem Decoder.refer_confirm {d : Decoder} (h : d.state = .confirm) (b : PackedBlock) :
    d.refer b = { d with reference := some (b.counter, b.layout) } := by
  rw [Decoder.refer, h]

/-- The block after the reference, with its layout, confirms it. -/
theorem Decoder.confirm_next {d : Decoder} {b : PackedBlock} {counter : Byte} {layout : RoleSet} (hr : d.reference = some (counter, layout))
    (hb : b.counter = counter + 1 ∧ b.layout = layout) :
    d.confirm b =
      { decoder := { state := .locked, reference := none, confirmed := some b.layout, candidate := none, conceal := 0,
                     lastGood := some (blockFrame b) }
        frame := Frame.silence
        confirms := true } := by
  obtain ⟨hcounter, hlayout⟩ := hb
  simp [Decoder.confirm, hr, hcounter, hlayout]

/-- Any other valid block is the new reference. -/
theorem Decoder.confirm_other {d : Decoder} {b : PackedBlock} {counter : Byte} {layout : RoleSet} (hr : d.reference = some (counter, layout))
    (hb : ¬ (b.counter = counter + 1 ∧ b.layout = layout)) : d.confirm b = Decoded.silent (d.refer b) := by
  rw [Decoder.confirm, if_neg]
  simpa [hr] using hb

/-! ## A valid block in LOCKED or CONCEAL (R110, R111, R113) -/

theorem Decoder.onHanded_valid_playing {d : Decoder} (h : d.state = .locked ∨ d.state = .conceal) (b : PackedBlock) :
    d.onHanded (.block (some b)) = d.play b := by
  rcases h with h | h <;> simp only [Decoder.onHanded, Decoder.onBlock, h]

@[simp] theorem Decoder.play_frame (d : Decoder) (b : PackedBlock) : (d.play b).frame = blockFrame b := rfl

@[simp] theorem Decoder.play_state (d : Decoder) (b : PackedBlock) : (d.play b).decoder.state = .locked := rfl

@[simp] theorem Decoder.play_conceal (d : Decoder) (b : PackedBlock) : (d.play b).decoder.conceal = 0 := rfl

@[simp] theorem Decoder.play_lastGood (d : Decoder) (b : PackedBlock) : (d.play b).decoder.lastGood = some (blockFrame b) := rfl

/-- A block of the confirmed layout drops the candidate. -/
theorem Decoder.play_confirmedLayout {d : Decoder} {b : PackedBlock} (h : d.confirmed = some b.layout) :
    (d.play b).decoder.confirmed = d.confirmed ∧ (d.play b).decoder.candidate = none := by
  simp [Decoder.play, h]

/-- The second block in a row of a new layout confirms it. -/
theorem Decoder.play_candidateLayout {d : Decoder} {b : PackedBlock} (hn : d.confirmed ≠ some b.layout) (h : d.candidate = some b.layout) :
    (d.play b).decoder.confirmed = some b.layout ∧ (d.play b).decoder.candidate = none ∧ (d.play b).confirms = true := by
  simp [Decoder.play, hn, h]

/-- The first block of a new layout makes it the candidate. -/
theorem Decoder.play_newLayout {d : Decoder} {b : PackedBlock} (hn : d.confirmed ≠ some b.layout) (hc : d.candidate ≠ some b.layout) :
    (d.play b).decoder.confirmed = d.confirmed ∧ (d.play b).decoder.candidate = some b.layout := by
  simp [Decoder.play, hn, hc]

/-! ## A bad block in LOCKED or CONCEAL (R112, R113) -/

theorem Decoder.onHanded_bad_locked {d : Decoder} (h : d.state = .locked) : d.onHanded (.block none) = d.concealAt 1 := by
  simp only [Decoder.onHanded, Decoder.onBlock, h]

theorem Decoder.onHanded_bad_conceal {d : Decoder} (h : d.state = .conceal) :
    d.onHanded (.block none) = d.concealAt (d.conceal + 1) := by
  simp only [Decoder.onHanded, Decoder.onBlock, h]

/-- A bad block leads to CONCEAL from LOCKED and from CONCEAL itself alone. -/
theorem Decoder.onHanded_bad_conceals {d : Decoder} (h : (d.onHanded (.block none)).decoder.state = .conceal) :
    d.state = .locked ∨ d.state = .conceal := by
  cases hd : d.state with
  | locked => exact .inl rfl
  | conceal => exact .inr rfl
  | off | hunt | confirm => simp [Decoder.onHanded, Decoder.onBlock, Decoded.silent, hd] at h

theorem Decoder.concealAt_of_le {d : Decoder} {count : Nat} (h : count ≤ 3) :
    d.concealAt count =
      { decoder := { d with state := .conceal, conceal := count, candidate := none }
        frame := (d.lastGood.getD Frame.silence).attenuate (6 * count)
        confirms := false } :=
  if_pos h

theorem Decoder.concealAt_of_lt {d : Decoder} {count : Nat} (h : 3 < count) :
    d.concealAt count = Decoded.silent { d with state := .hunt, conceal := 0, lastGood := none } :=
  if_neg (by omega)

/-- No count of bad blocks changes the confirmed layout. -/
@[simp] theorem Decoder.concealAt_confirmed (d : Decoder) (count : Nat) : (d.concealAt count).decoder.confirmed = d.confirmed := by
  by_cases h : count ≤ 3
  · rw [Decoder.concealAt_of_le h]
  · rw [Decoder.concealAt_of_lt (by omega), Decoded.silent]

/-- 6 dB are 24 steps of 10^(1/80). -/
theorem Frame.attenuate_six_mul (f : Frame) (count : Nat) : f.attenuate (6 * count) = { f with gain80 := f.gain80 - 24 * count } := by
  have hsteps : (4 : Int) * (6 * count : Nat) = 24 * count := by omega
  rw [Frame.attenuate, hsteps]

end Sys2Proof.Machine

/-! ## The obligation -/

namespace Sys2Proof.Proofs

open Sys2Proof.Machine

/-- Settles O33, by the rows of the transition table: the state of the decoder, and what it is handed. -/
theorem badBlocksAreConcealed : Obligations.BadBlocksAreConcealed := by
  intro s
  simp only [State.decode_pd, State.decode_mm_frame, State.decode_holds_decodeConceal]
  refine ⟨fun hlocked => ?_, fun hnot hnow => ?_, fun hhunt => ?_, fun counter layout hconfirm href => ?_, fun b hplays => ?_,
    fun f hconceal hgood => ?_, fun h hh => ?_⟩
  · rw [Decoder.onHanded_bad_locked hlocked, Decoder.concealAt_of_le (by decide)]
    refine ⟨rfl, rfl, rfl, rfl, fun f hgood => ?_, rfl⟩
    simp [hgood, Frame.attenuate_six_mul f 1]
  · exact (Decoder.onHanded_bad_conceals hnow).resolve_left hnot
  · rw [Decoder.onHanded_bad_hunt hhunt]
    refine ⟨rfl, rfl, fun b => ?_⟩
    rw [Decoder.onHanded_valid_hunt hhunt]
    exact ⟨rfl, rfl⟩
  · rw [Decoder.onHanded_bad_confirm hconfirm]
    refine ⟨rfl, rfl, fun b => ?_⟩
    have hvalid := Decoder.onHanded_valid_confirm hconfirm b
    by_cases hnext : b.counter = counter + 1 ∧ b.layout = layout
    · rw [Decoder.confirm_next href hnext] at hvalid
      rw [if_pos hnext, hvalid]
      exact ⟨rfl, rfl, State.decode_dirty (by rw [hvalid])⟩
    · rw [Decoder.confirm_other href hnext, Decoder.refer_confirm hconfirm] at hvalid
      rw [if_neg hnext, hvalid]
      exact ⟨rfl, rfl⟩
  · have hvalid := Decoder.onHanded_valid_playing hplays b
    rw [hvalid]
    refine ⟨s.pd.play_state b, s.pd.play_conceal b, s.pd.play_lastGood b, s.pd.play_frame b, by rw [Decoder.play_state]; rfl, ?_⟩
    by_cases hsame : s.pd.confirmed = some b.layout
    · rw [if_pos hsame]
      exact Decoder.play_confirmedLayout hsame
    · rw [if_neg hsame]
      by_cases hagain : s.pd.candidate = some b.layout
      · obtain ⟨hconfirmed, hcandidate, hconfirms⟩ := Decoder.play_candidateLayout hsame hagain
        rw [if_pos hagain]
        exact ⟨hconfirmed, hcandidate, State.decode_dirty (by rw [hvalid, hconfirms])⟩
      · rw [if_neg hagain]
        exact Decoder.play_newLayout hsame hagain
  · rw [Decoder.onHanded_bad_conceal hconceal]
    refine ⟨Decoder.concealAt_confirmed _ _, ?_⟩
    by_cases hcount : s.pd.conceal < 3
    · rw [if_pos hcount, Decoder.concealAt_of_le hcount]
      refine ⟨rfl, rfl, hgood, ?_⟩
      simp [hgood, Frame.attenuate_six_mul]
    · rw [if_neg hcount, Decoder.concealAt_of_lt (by omega)]
      exact ⟨rfl, rfl, rfl, rfl, rfl⟩
  · rw [Decoder.onHanded_noBlock hh]
    exact ⟨rfl, rfl⟩

end Sys2Proof.Proofs
end

section
/-! Proofs about the transmit queue (R19 to R28): a round begin, a take and every other event change the queue by offers, the end of a position and
the start of a round alone, each of which keeps its form. -/

namespace Sys2Proof.Machine

/-! ## A step -/

/-- What the end of the mark, a change of the waiting commands and every command keep, every step keeps. -/
theorem step_keeps {P : State → Prop} (hmark : ∀ s, P s → P s.endMark) (hpending : ∀ s rest, P s → P { s with pending := rest })
    (hexec : ∀ i s t, P s → exec i s = .next t → P t) {s t : State} (h : P s) (he : step s = .next t) : P t := by
  unfold step at he
  split at he
  next => cases he; exact hmark s h
  next c rest _ => exact hexec c _ t (hpending s rest h) he

/-! ## The steps of a round begin -/

/-- What each step of a round begin keeps, a round begin keeps, in both orders of the ramp step (R1, R129). -/
theorem State.roundBegin_keeps {P : State → Prop} {s : State} {r : RoundBegin} (h : P s)
    (swapRound : ∀ x, P x → P x.swapRound) (rampRound : ∀ x, P x → P x.rampRound) (clockRound : ∀ x, P x → P (x.clockRound r))
    (peerRound : ∀ x, P x → P x.peerRound) (receiverRound : ∀ d x, P x → P (x.receiverRound d))
    (sourceRound : ∀ l x, P x → P (x.sourceRound r l)) (evalGo : ∀ x, P x → P x.evalGo) (switchIfDown : ∀ x, P x → P x.switchIfDown)
    (clearRound : ∀ x, P x → P { x with sr := { x.sr with gathered := [] }, om := { x.om with carrier := 0 } })
    (outputRound : ∀ x, P x → P x.outputRound) (joinRound : ∀ x, P x → P x.joinRound) (sourceClose : ∀ x, P x → P x.sourceClose)
    (presenceRound : ∀ x, P x → P x.presenceRound) : P (s.roundBegin r) := by
  simp only [State.roundBegin]
  have first : P (if r.rampOrder == .stepFirst then s.swapRound.rampRound else s.swapRound) := by
    split
    · exact rampRound _ (swapRound _ h)
    · exact swapRound _ h
  have sources := fun d l => switchIfDown _ (evalGo _ (sourceRound l _ (receiverRound d _ (peerRound _ (clockRound _ first)))))
  refine presenceRound _ (sourceClose _ (joinRound _ (outputRound _ (clearRound _ ?_))))
  split
  · exact rampRound _ (sources _ _)
  · exact sources _ _

/-! ## The events that change the queue -/

theorem State.closeEvent_wf {s : State} {a : LinkController} (ha : a.wf) (h : LinkController.Offers true a s.lc) :
    s.closeEvent.lc.wf :=
  (s.closeEvent_offers h).wf ha

theorem State.closeEvent_wf_of_lc_eq {s x : State} (h : s.lc.wf) (hx : x.lc = s.lc) : x.closeEvent.lc.wf :=
  State.closeEvent_wf h (hx ▸ .refl true s.lc)

theorem State.onRequest_wf {s : State} (cls : BitVec 3) (k : Station) (p : List Byte) {act : State → State} (h : s.lc.wf)
    (ha : ∀ x : State, LinkController.Offers true x.lc (act x).lc) : (s.onRequest cls k p act).lc.wf :=
  State.onTake_wf _ _ h fun _ x => by
    split
    · exact ha x
    · exact .refl _ _

theorem State.atRoundBegin_offers {s : State} {act : State → State}
    (h : ∀ x : State, LinkController.Offers true x.lc (act x).lc) : LinkController.Offers true s.lc (s.atRoundBegin act).lc := by
  obtain ⟨before, after, heq⟩ := s.atRoundBegin_eq act
  rw [heq]
  exact h { s with mm := before }

/-- A step of the coming round begin that touches the link controller not at all. -/
theorem State.atRoundBegin_lc {s : State} {act : State → State} (h : ∀ x : State, (act x).lc = x.lc) :
    (s.atRoundBegin act).lc = s.lc := by
  obtain ⟨before, after, heq⟩ := s.atRoundBegin_eq act
  rw [heq]
  exact h { s with mm := before }

@[simp] theorem State.faultEvent_lc (s : State) (n : OutputNo) (edge : FaultEdge) : (s.faultEvent n edge).lc = s.lc := by
  simp only [State.faultEvent]
  split
  · exact State.atRoundBegin_lc fun x => by simp
  · simp

/-- The offers that a round begin makes once the link controller has begun the round. -/
theorem State.roundBegin_offers (s : State) (r : RoundBegin) :
    LinkController.Offers true s.lc.beginRound (s.roundBegin r).lc := by
  have hclock : ∀ x : State, (x.clockRound r).lc = x.lc.beginRound := fun x => by simp [State.clockRound]
  simp only [State.roundBegin, State.presenceRound_frame, State.sourceClose_frame]
  refine State.joinRound_offers _ ?_
  simp only [State.outputRound_frame]
  split <;> split <;>
    simp only [State.rampRound_frame, State.switchIfDown_frame, State.evalGo_frame] <;>
    refine State.sourceRound_offers _ _ _ ?_ <;>
    simp only [State.receiverRound_frame, State.peerRound_frame, hclock, State.rampRound_frame, State.swapRound_frame] <;>
    exact .refl _ _

theorem State.slotEnds_offers (s : State) (slot : SlotNo) (heard : List Byte) :
    LinkController.Offers true { s.lc with windowOpen := false, markOnLink := false } (s.slotEnds slot heard).lc := by
  have hjudge := State.judge_offers (s.hearSlot slot (validHeader s.rt.roundNumber slot heard)) slot
    ((validHeader s.rt.roundNumber slot heard).map (·.1)) (.refl _ _)
  simp only [State.slotEnds]
  split
  · simp only [State.writeRing_frame]
    exact hjudge
  · exact hjudge

/-! ## The commands -/

open State in
/-- Every command keeps the queue's form: its close makes offers, and before it the command makes offers alone, ends a position, or begins a round. -/
theorem exec_keeps_queue {i : Instr} {s t : State} (h : s.lc.wf) (he : exec i s = .next t) : t.lc.wf := by
  cases i <;> cases he
  case roundBegin r =>
    split
    · exact closeEvent_wf (LinkController.beginRound_wf h) (s.roundBegin_offers r)
    · exact h
  case messageVoided =>
    split
    · exact closePosition_wf (LinkController.endPosition_wf (LinkController.endMark_wf h) _ _ _ _)
        (LinkController.endPosition_grounded _ _ _ _ _) (.refl true _)
    · exact h
  case claim | release => exact onTake_wf _ _ h fun _ _ => changeTable_offers _ _ _ (.refl _ _)
  case zoneSet =>
    refine onTake_wf _ _ h fun _ _ => ?_
    split
    · exact applyZoneSet_offers _ _ (.refl _ _)
    · exact rederiveMode_offers _ (.refl _ _)
  case zoneState =>
    refine onTake_wf _ _ h fun _ _ => ?_
    split
    · exact applyZoneState_offers _ _ (.refl _ _)
    · exact rederiveMode_offers _ (.refl _ _)
  case presence => exact onTake_wf _ _ h fun _ _ => answerJoin_offers _ _ _ (by simpa using .refl _ _)
  case reply | listPage | presetData | status | unknownKind => exact onTake_wf _ _ h fun _ _ => .refl _ _
  case roleMap => exact onRequest_wf _ _ _ h fun _ => onRoleMap_offers _ _ _ (.refl _ _)
  case tune => exact onRequest_wf _ _ _ h fun _ => onTune_offers _ _ _ (.refl _ _)
  case seek => exact onRequest_wf _ _ _ h fun _ => onSeek_offers _ _ _ (.refl _ _)
  case scan => exact onRequest_wf _ _ _ h fun _ => onScan_offers _ _ _ (.refl _ _)
  case presetRecall => exact onRequest_wf _ _ _ h fun _ => onPresetRecall_offers _ _ _ (.refl _ _)
  case presetStore | presetClear => exact onRequest_wf _ _ _ h fun _ => onStoreEntry_offers _ _ _ _ _ (.refl _ _)
  case presetRead => exact onRequest_wf _ _ _ h fun _ => onPresetRead_offers _ _ _ (.refl _ _)
  case listRead => exact onRequest_wf _ _ _ h fun _ => onListRead_offers _ _ _ (.refl _ _)
  case statusQuery => exact onRequest_wf _ _ _ h fun _ => onStatusQuery_offers _ _ _ (.refl _ _)
  case slotEnd slot heard =>
    split
    · exact closeEvent_wf (a := { s.lc with windowOpen := false, markOnLink := false }) h (s.slotEnds_offers slot heard)
    · exact h
  case slotExpiry =>
    split
    · exact closeEvent_wf h (judge_offers _ _ _ (.refl _ _))
    · exact h
  case joinWindowEnd =>
    split
    · exact closeEvent_wf h (atRoundBegin_offers fun x => endWindow_offers x (.refl _ _))
    · exact h
  case watchdogExpiry | peerAbsence | rampDownComplete | holdoverExpiry =>
    split
    · exact closeEvent_wf_of_lc_eq h (atRoundBegin_lc fun x => by simp)
    · exact h
  case clockGained | acquiringEnd =>
    split
    · exact closeEvent_wf h (putInput_offers _ _ _ (.refl _ _))
    · exact h
  case clockLost | syncPattern | blockCompletion => exact closeEvent_wf h (atInput_offers _ _ _ (.refl _ _))
  case syncLost =>
    split
    · exact closeEvent_wf h (atInput_offers _ _ _ (.refl _ _))
    · exact h
  case gateClose =>
    split
    · exact closeEvent_wf h (gateCloses_offers _ _ (.refl _ _))
    · exact h
  case muteLineAssert | muteLineRelease => exact (driveMute_offers s _ (.refl true _)).wf h
  case supplyMoveToNormal | recoveryEnd =>
    split
    · exact closeEvent_wf h (engineBegin_offers _ (.refl _ _))
    · exact h
  case readComplete =>
    split
    · exact closeEvent_wf h (completeRead_offers _ _ _ (.refl _ _))
    · exact h
  case programmingCommit =>
    split
    · exact closeEvent_wf h (commit_offers _ _ (.refl _ _))
    · exact h
  case supersedingEnd =>
    split
    · exact closeEvent_wf h (supersede_offers _ _ (.refl _ _))
    · exact h
  case erasingEnd =>
    split
    · exact closeEvent_wf h (endErase_offers _ _ (.refl _ _))
    · exact h
  case copyingEnd =>
    split
    · exact closeEvent_wf h (endCopy_offers _ _ (.refl _ _))
    · exact h
  case headerEnd =>
    split
    · exact closeEvent_wf h (endHeader_offers _ _ (.refl _ _))
    · exact h
  case joinStart =>
    split
    · exact closeEvent_wf h (startJoin_offers _ (.refl _ _))
    · exact h
  case outputFault =>
    dsimp only
    split
    · exact closeEvent_wf_of_lc_eq h (by simp)
    · exact h
  case takeoverTimerExpiry | rampUpComplete | overloadDecay | settleEnd | unheldTimeout | imageRead | supplyMoveToLow | faultRecoveryEnd =>
    split
    · exact closeEvent_wf_of_lc_eq h (by simp)
    · exact h
  case senderMarkDue =>
    split
    · split <;> exact h
    · exact h
  case readSuspendDelayEnd => split <;> exact h
  case reset => simp [LinkController.wf, State.resetWith, LinkController.reset]
  case leaveReset => dsimp only; split <;> exact h
  case carrierBoundary => split <;> exact h

end Sys2Proof.Machine

namespace Sys2Proof.Proofs

open Sys2Proof.Machine

/-- Settles O15, by the command at the front of the queue, or the end of the mark where none waits. -/
theorem everyStepKeepsTheQueue : Obligations.EveryStepKeepsTheQueue := fun _ _ =>
  step_keeps (P := fun s => s.lc.wf) (fun _ => LinkController.endMark_wf) (fun _ _ h => h) fun _ _ _ => exec_keeps_queue

end Sys2Proof.Proofs
end

section
/-! Proofs about the zone records (R76, R80, R81): a ZONE SET, a ZONE STATE, the end of the join window and a reset alone write them or their marks, and
nothing but the take of the joining PRESENCE and the join window moves the time in which fields are marked. -/

namespace Sys2Proof.Machine

/-! ## The time in which fields are marked -/

theorem State.mayMarkFields_congr {s t : State} (hm : t.pt.mode = s.pt.mode) (hf : t.pt.joinFlag = s.pt.joinFlag) :
    t.mayMarkFields = s.mayMarkFields := by
  simp only [State.mayMarkFields, hm, hf]

theorem State.mayMarkFields_of_not_joining {s : State} (h : s.pt.mode ≠ .joining) : s.mayMarkFields = false := by
  simp [State.mayMarkFields, beq_false_of_ne h]

theorem State.derivedMode_not_joining (s : State) : s.derivedMode ≠ .joining := by
  simp only [State.derivedMode]
  (repeat' split) <;> decide

/-- A re-derivation neither enters nor leaves the join window. -/
@[simp] theorem State.rederiveMode_mayMark (s : State) : s.rederiveMode.mayMarkFields = s.mayMarkFields := by
  simp only [State.rederiveMode]
  split
  · next hc =>
    have hmode : s.pt.mode ≠ .joining := by simp_all
    rw [State.mayMarkFields_of_not_joining hmode,
      State.mayMarkFields_of_not_joining (by rw [State.changeMode_mode]; exact s.derivedMode_not_joining)]
  · rfl

@[simp] theorem State.afterTableLoss_mayMark (s : State) (freed : List Stream) :
    (s.afterTableLoss freed).mayMarkFields = s.mayMarkFields := by
  simp only [State.afterTableLoss]
  split
  · rw [State.rederiveMode_mayMark]
    exact State.mayMarkFields_congr (by simp) (by simp)
  · exact State.mayMarkFields_congr (by simp) (by simp)

@[simp] theorem State.handRecords_mayMark (s : State) (old : ZoneRecord) : (s.handRecords old).mayMarkFields = s.mayMarkFields := by
  simp only [State.handRecords]
  have hgo : ∀ x : State, x.rederiveMode.evalGo.mayMarkFields = x.mayMarkFields := fun x => by
    rw [State.mayMarkFields_congr (s := x.rederiveMode) (by simp) (by simp), State.rederiveMode_mayMark]
  rw [hgo]
  split <;> exact State.mayMarkFields_congr (by simp) (by simp)

@[simp] theorem State.changeTable_mayMark (s : State) (change : TableChange) (own : Option Source) :
    (s.changeTable change own).mayMarkFields = s.mayMarkFields := by
  simp only [State.changeTable, State.rederiveMode_mayMark]
  exact State.mayMarkFields_congr (by simp) (by simp)

@[simp] theorem State.judge_mayMark (s : State) (slot : SlotNo) (header : Option SlotHeader) :
    (s.judge slot header).mayMarkFields = s.mayMarkFields := by
  simp only [State.judge, State.afterTableLoss_mayMark]
  rfl

@[simp] theorem State.slotEnds_mayMark (s : State) (slot : SlotNo) (heard : List Byte) :
    (s.slotEnds slot heard).mayMarkFields = s.mayMarkFields := by
  have hhear : ∀ h, (s.hearSlot slot h).mayMarkFields = s.mayMarkFields := fun _ => rfl
  have hring : ∀ x : State, x.writeRing.mayMarkFields = x.mayMarkFields := fun x =>
    State.mayMarkFields_congr (by simp) (by simp)
  simp only [State.slotEnds]
  split <;> simp only [hring, State.judge_mayMark, hhear]

@[simp] theorem State.onRoleMap_peers (s : State) (sender : Station) (p : List Byte) :
    (s.onRoleMap sender p).pt.mode = s.pt.mode ∧ (s.onRoleMap sender p).pt.joinFlag = s.pt.joinFlag := by
  simp only [State.onRoleMap]
  split <;> simp [State.mapRole]

@[simp] theorem State.refreshEntry_peers (s : State) (sender : Station) (c : Option PresenceContent) :
    (s.refreshEntry sender c).pt.mode = s.pt.mode ∧ (s.refreshEntry sender c).pt.joinFlag = s.pt.joinFlag := by
  simp only [State.refreshEntry]
  split <;> simp

@[simp] theorem State.answerJoin_peers (s : State) (sender : Station) (b : Bool) :
    (s.answerJoin sender b).pt = s.pt := rfl

@[simp] theorem State.configure_peers (s : State) (v : Option ConfigValues) :
    (s.configure v).pt.mode = s.pt.mode ∧ (s.configure v).pt.joinFlag = s.pt.joinFlag :=
  ⟨rfl, rfl⟩

@[simp] theorem State.driveMute_peers (s : State) (on : Bool) :
    (s.driveMute on).pt.mode = s.pt.mode ∧ (s.driveMute on).pt.joinFlag = s.pt.joinFlag := by
  simp only [State.driveMute]
  split <;> simp

@[simp] theorem State.startJoin_peers (s : State) : s.startJoin.pt.mode = .joining ∧ s.startJoin.pt.joinFlag = s.pt.joinFlag := by
  simp [State.startJoin]

@[simp] theorem State.faultEvent_zones (s : State) (n : OutputNo) (edge : FaultEdge) :
    (s.faultEvent n edge).zt = s.zt ∧ (s.faultEvent n edge).pt.mode = s.pt.mode ∧ (s.faultEvent n edge).pt.joinFlag = s.pt.joinFlag := by
  simp only [State.faultEvent]
  split
  · obtain ⟨before, after, heq⟩ := s.atRoundBegin_eq fun x => ((x.countFault n).holdSteps n).switchIfDown
    simp [heq]
  · simp

/-! ## What the parts of the state leave of the zone table's form -/

/-- A state with the zone table of another, its mode and its joining flag. -/
theorem State.zonesWf_congr {s t : State} (h : s.zonesWf) (hz : t.zt = s.zt) (hm : t.mayMarkFields = s.mayMarkFields) : t.zonesWf :=
  State.zonesWf_of h (by rw [hz]) (by rw [hz]) fun hf => by rw [← hm]; exact hf

theorem State.zonesWf_frame {s t : State} (h : s.zonesWf) (hz : t.zt = s.zt) (hp : t.pt.mode = s.pt.mode)
    (hf : t.pt.joinFlag = s.pt.joinFlag) : t.zonesWf :=
  State.zonesWf_congr h hz (State.mayMarkFields_congr hp hf)

theorem State.onTake_zonesWf {s : State} (f : ArbField) {act : State → State → State} (h : s.zonesWf)
    (ha : ∀ b x : State, x.zonesWf → (act b x).zonesWf) : (s.onTake f act).zonesWf := by
  simp only [State.onTake]
  split
  · have htaken : (s.endMark.takeMessage f).zonesWf := State.zonesWf_frame h (by simp) rfl rfl
    exact State.zonesWf_frame (ha s.endMark _ htaken) (by simp) rfl rfl
  · exact h

theorem State.onRequest_zonesWf {s : State} (cls : BitVec 3) (k : Station) (p : List Byte) {act : State → State} (h : s.zonesWf)
    (ha : ∀ x : State, (act x).zt = x.zt ∧ (act x).pt.mode = x.pt.mode ∧ (act x).pt.joinFlag = x.pt.joinFlag) :
    (s.onRequest cls k p act).zonesWf :=
  State.onTake_zonesWf _ h fun _ x hx => by
    split
    · obtain ⟨hz, hm, hf⟩ := ha x
      exact State.zonesWf_frame hx hz hm hf
    · exact hx

theorem State.atRoundBegin_zonesWf {s : State} {act : State → State} (h : s.zonesWf)
    (ha : ∀ x : State, x.zonesWf → (act x).zonesWf) : (s.atRoundBegin act).zonesWf := by
  obtain ⟨before, after, heq⟩ := s.atRoundBegin_eq act
  rw [heq]
  exact ha { s with mm := before } h

theorem State.closeEvent_zonesWf {s : State} (h : s.zonesWf) : s.closeEvent.zonesWf :=
  State.zonesWf_frame h (by simp) rfl rfl

/-! ## The operations that write the zone table -/

theorem State.applyZoneSet_zonesWf {s : State} (h : s.zonesWf) {p : List Byte} {f : ZoneSetFields} (hp : zoneSetFields p = some f) :
    (s.applyZoneSet f).zonesWf := by
  have hmay : (s.applyZoneSet f).mayMarkFields = s.mayMarkFields := by
    simp only [State.applyZoneSet, State.handRecords_mayMark]
    exact State.mayMarkFields_congr (by simp) (by simp)
  exact State.applySet_zonesWf h (zoneSetFields_volume hp) (by simp [State.applyZoneSet, State.mayMarkFields])
    (by simp [State.applyZoneSet, State.mayMarkFields]) fun hf => by rw [← hmay]; exact hf

theorem State.applyZoneState_zonesWf {s : State} (h : s.zonesWf) {p : List Byte} {carried : Vector ZoneRecord 4}
    (hp : zoneStateFields p = some carried) : (s.applyZoneState carried).zonesWf := by
  have hmay : (s.applyZoneState carried).mayMarkFields = s.mayMarkFields := by
    simp only [State.applyZoneState, State.handRecords_mayMark]
    exact State.mayMarkFields_congr (by simp) (by simp)
  exact State.applyState_zonesWf h (zoneStateFields_wf hp) (by simp [State.applyZoneState])
    (by simp [State.applyZoneState, ZoneTable.applyState]) fun hf => by rw [← hmay]; exact hf

theorem State.rederiveMode_zonesWf {s : State} (h : s.zonesWf) : s.rederiveMode.zonesWf :=
  State.zonesWf_congr h (by simp) (by simp)

/-- With the marks cleared the records alone make the form. -/
theorem State.zonesWf_of_clear {s t : State} (h : s.zonesWf) (hr : t.zt.records = s.zt.records)
    (hm : ∀ z : Zone, t.zt.marks[z] = ZoneMarks.clear) : t.zonesWf := fun z => by
  obtain ⟨hrecord, -, -⟩ := h z
  rw [hm z, hr]
  exact ⟨hrecord, ZoneMarks.clear_wf _, fun _ => rfl⟩

@[simp] theorem State.endWindow_marks (s : State) (z : Zone) : s.endWindow.zt.marks[z] = ZoneMarks.clear := by
  have hmarks : s.endWindow.zt.marks = Vector.replicate 4 ZoneMarks.clear := by
    simp [State.endWindow, State.eachSource, State.closeWindow]
  simp [hmarks]

theorem State.endWindow_zonesWf {s : State} (h : s.zonesWf) : s.endWindow.zonesWf :=
  State.zonesWf_of_clear h (by simp) fun z => s.endWindow_marks z

theorem State.joinRound_zonesWf {s : State} (h : s.zonesWf) : s.joinRound.zonesWf := by
  simp only [State.joinRound]
  split
  · split
    · exact State.endWindow_zonesWf h
    · exact State.zonesWf_frame h rfl rfl rfl
  · exact h

/-- A round begin: the join count alone moves the mode, and nothing before it the zone records. -/
theorem State.roundBegin_zonesWf {s : State} (h : s.zonesWf) (r : RoundBegin) : (s.roundBegin r).zonesWf := by
  have hframe : ∀ x y : State, y.zt = x.zt → y.pt.mode = x.pt.mode → y.pt.joinFlag = x.pt.joinFlag → x.zonesWf → y.zonesWf :=
    fun x y hz hm hf hx => State.zonesWf_frame hx hz hm hf
  apply State.roundBegin_keeps (P := State.zonesWf) (h := h)
  case joinRound => exact fun _ => State.joinRound_zonesWf
  case peerRound =>
    refine fun x hx => State.zonesWf_of hx (by simp) (by simp) fun hf => ?_
    rw [← hf]
    exact State.mayMarkFields_congr (by simp [State.peerRound]; split <;> simp) (by simp [State.peerRound]; split <;> simp)
  case receiverRound | sourceRound => exact fun _ x => hframe x _ (by simp) (by simp) (by simp)
  all_goals exact fun x => hframe x _ (by simp) (by simp) (by simp)

theorem State.zonesWf_resetWith (sectors : Vector Sector 2) (rc : ResetControl) (pins : Pins) (draws : Nat) (pending : List Instr) :
    (State.resetWith sectors rc pins draws pending).zonesWf := fun z => by
  have hrecord : (State.resetWith sectors rc pins draws pending).zt.records[z] = ZoneRecord.reset := by
    simp [State.resetWith, ZoneTable.reset]
  have hmarks : (State.resetWith sectors rc pins draws pending).zt.marks[z] = ZoneMarks.clear := by
    simp [State.resetWith, ZoneTable.reset]
  rw [hrecord, hmarks]
  exact ⟨⟨fun _ => rfl, by decide⟩, ZoneMarks.clear_wf _, fun _ => rfl⟩

theorem State.removePeer_zonesWf {s : State} (h : s.zonesWf) (k : Station) :
    ({ s with pt := { s.pt with entries := s.pt.entries.set k none } }.deriveRoles.evalGo).zonesWf :=
  State.zonesWf_of h (by simp) (by simp) fun hf => by rw [← hf]; exact State.mayMarkFields_congr (by simp) (by simp)

/-! ## The commands -/

open State in
/-- Every command keeps the zone table's form. -/
theorem exec_keeps_zones {i : Instr} {s t : State} (h : s.zonesWf) (he : exec i s = .next t) : t.zonesWf := by
  cases i <;> cases he
  case roundBegin r =>
    split
    · exact closeEvent_zonesWf (roundBegin_zonesWf h r)
    · exact h
  case zoneSet p =>
    refine onTake_zonesWf _ h fun _ x hx => ?_
    split
    next f hf => exact applyZoneSet_zonesWf hx hf
    next => exact rederiveMode_zonesWf hx
  case zoneState p =>
    refine onTake_zonesWf _ h fun _ x hx => ?_
    split
    next hf => exact applyZoneState_zonesWf hx hf
    next => exact rederiveMode_zonesWf hx
  case joinWindowEnd =>
    split
    · exact closeEvent_zonesWf (atRoundBegin_zonesWf h fun _ => endWindow_zonesWf)
    · exact h
  case reset => exact zonesWf_resetWith _ _ _ _ _
  case claim | release =>
    exact onTake_zonesWf _ h fun _ x hx => zonesWf_congr hx (by simp) (by simp)
  case presence sender p =>
    refine onTake_zonesWf _ h fun b x hx => zonesWf_of hx (by simp) (by simp) fun hf => ?_
    simp only [mayMarkFields, answerJoin_peers, refreshEntry_peers, clearJoinFlag, Bool.and_eq_false_imp] at hf ⊢
    simp_all
  case reply | listPage | presetData | status | unknownKind => exact onTake_zonesWf _ h fun _ _ hx => hx
  case roleMap => exact onRequest_zonesWf _ _ _ h fun x => ⟨by simp, by simp, by simp⟩
  case tune | seek | scan | presetRecall | presetStore | presetClear | presetRead | listRead | statusQuery =>
    exact onRequest_zonesWf _ _ _ h fun x => ⟨by simp, by simp, by simp⟩
  case messageVoided =>
    split
    · exact zonesWf_frame h (by simp) rfl rfl
    · exact h
  case slotEnd => 
    split
    · refine closeEvent_zonesWf (zonesWf_congr h (by simp) (by simp))
    · exact h
  case slotExpiry => 
    split
    · refine closeEvent_zonesWf (zonesWf_congr h (by simp) (by simp))
    · exact h
  case peerAbsence =>
    split
    · exact closeEvent_zonesWf (atRoundBegin_zonesWf h fun _ hx => removePeer_zonesWf hx _)
    · exact h
  case watchdogExpiry | rampDownComplete | holdoverExpiry =>
    split
    · exact closeEvent_zonesWf (atRoundBegin_zonesWf h fun x hx => zonesWf_frame hx (by simp) (by simp) (by simp))
    · exact h
  case takeoverTimerExpiry | rampUpComplete | overloadDecay | settleEnd | unheldTimeout | imageRead | supplyMoveToLow
      | faultRecoveryEnd | clockGained | acquiringEnd | syncLost | gateClose | supplyMoveToNormal | recoveryEnd
      | readComplete | programmingCommit | supersedingEnd | erasingEnd | copyingEnd | headerEnd =>
    split
    · exact closeEvent_zonesWf (zonesWf_frame h (by simp) (by simp) (by simp))
    · exact h
  case clockLost | syncPattern | blockCompletion => exact closeEvent_zonesWf (zonesWf_frame h (by simp) (by simp) (by simp))
  case muteLineAssert | muteLineRelease => exact zonesWf_frame h (by simp) (by simp) (by simp)
  case joinStart => 
    split
    · refine closeEvent_zonesWf (zonesWf_of h (by simp) (by simp) fun hf => ?_)
      simp_all [mayMarkFields]
    · exact h
  case outputFault =>
    dsimp only
    split
    · exact closeEvent_zonesWf (zonesWf_frame h (by simp) (by simp) (by simp))
    · exact h
  case senderMarkDue =>
    split
    · split <;> exact h
    · exact h
  case readSuspendDelayEnd => split <;> exact h
  case leaveReset => dsimp only; split <;> exact h
  case carrierBoundary => split <;> exact h

end Sys2Proof.Machine
end

section
/-! Proofs about the tuner's holder list (R150): a ZONE SET and a ZONE STATE alone change it, each with the records whose programs it follows. -/

namespace Sys2Proof.Machine

/-! ## Operations of the tuner that leave the holder list -/

@[simp] theorem State.setTuner_tb (s : State) (tb : Tuner) : (s.setTuner tb).tb = tb := rfl

@[simp] theorem Tuner.settle_holders (tb : Tuner) (band : Band) (freq : Nat) : (tb.settle band freq).holders = tb.holders := rfl

@[simp] theorem Tuner.resume_holders (tb : Tuner) : tb.resume.holders = tb.holders := rfl

@[simp] theorem Tuner.toOff_holders (tb : Tuner) : tb.toOff.holders = tb.holders := rfl

@[simp] theorem Tuner.openGate_holders (tb : Tuner) (c : Counter) : (tb.openGate c).holders = tb.holders := rfl

@[simp] theorem Tuner.measure_holders (tb : Tuner) (c : Counter) : (tb.measure c).holders = tb.holders := rfl

@[simp] theorem Tuner.listen_holders (tb : Tuner) (c : Counter) : (tb.listen c).holders = tb.holders := rfl

@[simp] theorem Tuner.accumulate_holders (tb : Tuner) (fe : FrontEnd) : (tb.accumulate fe).holders = tb.holders := by
  simp only [Tuner.accumulate]
  (repeat' split) <;> simp

@[simp] theorem Tuner.closeGate_holders (tb : Tuner) (c : Counter) (draw : Nat) : (tb.closeGate c draw).holders = tb.holders := rfl

@[simp] theorem Tuner.count_holders (tb : Tuner) : tb.count.holders = tb.holders := by
  simp only [Tuner.count]
  (repeat' split) <;> simp

@[simp] theorem Tuner.unheldMove_holders (tb : Tuner) : tb.unheldMove.holders = tb.holders := by
  simp only [Tuner.unheldMove]
  (repeat' split) <;> simp

@[simp] theorem Tuner.unheldStep_holders (tb : Tuner) : tb.unheldStep.holders = tb.holders := by
  simp only [Tuner.unheldStep]
  (repeat' split) <;> simp

@[simp] theorem State.takePhase_tunerHolders (s : State) (b : Bool) : (s.takePhase b).tb.holders = s.tb.holders := by
  simp [State.takePhase]

@[simp] theorem State.endOperation_tunerHolders (s : State) (op : Operation) (o : ReplyOutcome) (v : Option Nat) : (s.endOperation op o v).tb.holders = s.tb.holders := by
  simp [State.endOperation]

@[simp] theorem State.abortOperation_tunerHolders (s : State) : s.abortOperation.tb.holders = s.tb.holders := by
  simp only [State.abortOperation]
  (repeat' split) <;> simp

@[simp] theorem State.stepOperation_tunerHolders (s : State) (op : Operation) (g : Stage) (f : Nat) : (s.stepOperation op g f).tb.holders = s.tb.holders := by
  simp [State.stepOperation]

@[simp] theorem State.listenAndEnd_tunerHolders (s : State) (op : Operation) (c : Counter) (o : ReplyOutcome) (v : Option Nat) : (s.listenAndEnd op c o v).tb.holders = s.tb.holders := by
  simp [State.listenAndEnd]

@[simp] theorem State.seekClose_tunerHolders (s : State) (op : Operation) (c : Counter) : (s.seekClose op c).tb.holders = s.tb.holders := by
  simp only [State.seekClose]
  (repeat' split) <;> simp

@[simp] theorem State.scanClose_tunerHolders (s : State) (op : Operation) : (s.scanClose op).tb.holders = s.tb.holders := by
  simp only [State.scanClose]
  (repeat' split) <;> simp

@[simp] theorem State.actOnMeasurement_tunerHolders (s : State) (c : Counter) : (s.actOnMeasurement c).tb.holders = s.tb.holders := by
  simp only [State.actOnMeasurement]
  (repeat' split) <;> simp

@[simp] theorem State.gateCloses_tunerHolders (s : State) (c : Counter) : (s.gateCloses c).tb.holders = s.tb.holders := by
  simp only [State.gateCloses]
  (repeat' split) <;> simp

@[simp] theorem State.phaseStep_tunerHolders (s : State) : s.phaseStep.tb.holders = s.tb.holders := by
  simp only [State.phaseStep]
  (repeat' split) <;> simp

@[simp] theorem State.tunerRound_tunerHolders (s : State) (fe : FrontEnd) (d : Demodulated) : (s.tunerRound fe d).tb.holders = s.tb.holders := by
  simp only [State.tunerRound]
  (repeat' split) <;> simp

@[simp] theorem State.tunerClose_tunerHolders (s : State) : s.tunerClose.tb.holders = s.tb.holders := by
  simp only [State.tunerClose]
  (repeat' split) <;> simp

@[simp] theorem State.wakeTuner_tunerHolders (s : State) : s.wakeTuner.tb.holders = s.tb.holders := by
  simp only [State.wakeTuner]
  (repeat' split) <;> simp

@[simp] theorem State.stopTuner_tunerHolders (s : State) : s.stopTuner.tb.holders = s.tb.holders := by
  simp [State.stopTuner]

@[simp] theorem State.startOperation_tunerHolders (s : State) (op : Operation) : (s.startOperation op).tb.holders = s.tb.holders := by
  simp [State.startOperation]

@[simp] theorem State.startTune_tunerHolders (s : State) (r : Requester) (b : Band) (f : Nat) : (s.startTune r b f).tb.holders = s.tb.holders := by
  simp [State.startTune]

@[simp] theorem State.startSeek_tunerHolders (s : State) (r : Requester) (d : Direction) : (s.startSeek r d).tb.holders = s.tb.holders := by
  simp [State.startSeek]

@[simp] theorem State.startScan_tunerHolders (s : State) (r : Requester) : (s.startScan r).tb.holders = s.tb.holders := by
  simp [State.startScan]

@[simp] theorem State.recallResult_tunerHolders (s : State) (r : Option RecordSlot) : (s.recallResult r).tb.holders = s.tb.holders := by
  simp only [State.recallResult]
  (repeat' split) <;> simp

@[simp] theorem State.startRecall_tunerHolders (s : State) (r : Requester) (n : Fin 30) : (s.startRecall r n).tb.holders = s.tb.holders := by
  simp only [State.startRecall]
  (repeat' split) <;> simp

@[simp] theorem State.deliverRead_tunerHolders (s : State) (r : Read) : (s.deliverRead r).tb.holders = s.tb.holders := by
  simp only [State.deliverRead]
  (repeat' split) <;> simp

@[simp] theorem State.completeRead_tunerHolders (s : State) (r : Read) (rest : List Read) : (s.completeRead r rest).tb.holders = s.tb.holders := by
  simp [State.completeRead]

@[simp] theorem State.wake_tunerHolders (s : State) : s.wake.tb.holders = s.tb.holders := by
  simp [State.wake]

@[simp] theorem State.enterMode_tunerHolders (s : State) (old : Mode) : (s.enterMode old).tb.holders = s.tb.holders := by
  simp only [State.enterMode, State.eachOutput]
  (repeat' split) <;> simp

@[simp] theorem State.changeMode_tunerHolders (s : State) (m : Mode) : (s.changeMode m).tb.holders = s.tb.holders := by
  simp only [State.changeMode]
  (repeat' split) <;> simp

@[simp] theorem State.rederiveMode_tunerHolders (s : State) : s.rederiveMode.tb.holders = s.tb.holders := by
  simp only [State.rederiveMode]
  (repeat' split) <;> simp

@[simp] theorem State.afterTableLoss_tunerHolders (s : State) (freed : List Stream) : (s.afterTableLoss freed).tb.holders = s.tb.holders := by
  simp only [State.afterTableLoss]
  (repeat' split) <;> simp

@[simp] theorem State.handRecords_tunerHolders (s : State) (old : ZoneRecord) : (s.handRecords old).tb.holders = s.tb.holders := by
  simp only [State.handRecords]
  (repeat' split) <;> simp

@[simp] theorem State.sourceRound_tunerHolders (s : State) (r : RoundBegin) (l : LocalRound) : (s.sourceRound r l).tb.holders = s.tb.holders := by
  simp [State.sourceRound, State.eachSource]

@[simp] theorem State.sourceClose_tunerHolders (s : State) : s.sourceClose.tb.holders = s.tb.holders := by
  simp [State.sourceClose]

@[simp] theorem State.endWindow_tunerHolders (s : State) : s.endWindow.tb.holders = s.tb.holders := by
  simp [State.endWindow, State.eachSource]

@[simp] theorem State.joinRound_tunerHolders (s : State) : s.joinRound.tb.holders = s.tb.holders := by
  simp only [State.joinRound]
  (repeat' split) <;> simp

@[simp] theorem State.changeTable_tunerHolders (s : State) (c : TableChange) (o : Option Source) : (s.changeTable c o).tb.holders = s.tb.holders := by
  simp [State.changeTable]

@[simp] theorem State.onTune_tunerHolders (s : State) (k : Station) (p : List Byte) : (s.onTune k p).tb.holders = s.tb.holders := by
  simp only [State.onTune, State.tunerRequest]
  (repeat' split) <;> simp

@[simp] theorem State.onSeek_tunerHolders (s : State) (k : Station) (p : List Byte) : (s.onSeek k p).tb.holders = s.tb.holders := by
  simp only [State.onSeek, State.tunerRequest]
  (repeat' split) <;> simp

@[simp] theorem State.onScan_tunerHolders (s : State) (k : Station) (p : List Byte) : (s.onScan k p).tb.holders = s.tb.holders := by
  simp only [State.onScan, State.tunerRequest]
  (repeat' split) <;> simp

@[simp] theorem State.onPresetRecall_tunerHolders (s : State) (k : Station) (p : List Byte) : (s.onPresetRecall k p).tb.holders = s.tb.holders := by
  simp only [State.onPresetRecall, State.tunerRequest]
  (repeat' split) <;> simp

@[simp] theorem State.judge_tunerHolders (s : State) (slot : SlotNo) (h : Option SlotHeader) : (s.judge slot h).tb.holders = s.tb.holders := by
  simp [State.judge]

@[simp] theorem State.slotEnds_tunerHolders (s : State) (slot : SlotNo) (heard : List Byte) : (s.slotEnds slot heard).tb.holders = s.tb.holders := by
  simp only [State.slotEnds]
  (repeat' split) <;> simp

/-! ## What the parts of the state leave of the holder list's form -/

theorem State.holdersWf_of {s t : State} (h : s.holdersWf) (htb : t.tb.holders = s.tb.holders) (hz : t.zt.records = s.zt.records)
    (hfitted : t.cl.values.tunerFitted = s.cl.values.tunerFitted) (hstation : t.cl.station = s.cl.station)
    (hjoined : t.cl.joined = s.cl.joined) (himage : t.cl.imageRead = s.cl.imageRead) (hrc : t.rc = s.rc) : t.holdersWf := by
  simp only [State.holdersWf, State.ownStream, State.own, State.inReset, htb, hz, hfitted, hstation, hjoined, himage, hrc]
  exact h

theorem State.holdersWf_frame {s t : State} (h : s.holdersWf) (htb : t.tb.holders = s.tb.holders) (hz : t.zt.records = s.zt.records)
    (hcl : t.cl = s.cl) (hrc : t.rc = s.rc) : t.holdersWf :=
  State.holdersWf_of h htb hz (by rw [hcl]) (by rw [hcl]) (by rw [hcl]) (by rw [hcl]) hrc

theorem State.closeEvent_holdersWf {s : State} (h : s.holdersWf) : s.closeEvent.holdersWf :=
  State.holdersWf_frame h (by simp) (by simp) (by simp) (by simp)

theorem State.onTake_holdersWf {s : State} (f : ArbField) {act : State → State → State} (h : s.holdersWf)
    (ha : ∀ b x : State, x.cl.joined = true → x.holdersWf → (act b x).holdersWf) : (s.onTake f act).holdersWf := by
  simp only [State.onTake]
  split
  · next htakes =>
    have htaken : (s.endMark.takeMessage f).holdersWf := State.holdersWf_frame h (by simp) (by simp) (by simp) (by simp)
    have hjoined : s.cl.joined = true := by
      simp only [State.takes, State.joined, Bool.and_eq_true] at htakes
      exact htakes.1.2
    exact State.holdersWf_frame (ha s.endMark _ (by simpa using hjoined) htaken) (by simp) (by simp) (by simp) (by simp)
  · exact h

theorem State.onRequest_holdersWf {s : State} (cls : BitVec 3) (k : Station) (p : List Byte) {act : State → State} (h : s.holdersWf)
    (ha : ∀ x : State, x.holdersWf → (act x).holdersWf) : (s.onRequest cls k p act).holdersWf :=
  State.onTake_holdersWf _ h fun _ x _ hx => by
    split
    · exact ha x hx
    · exact hx

theorem State.atRoundBegin_holdersWf {s : State} {act : State → State} (h : s.holdersWf)
    (ha : ∀ x : State, x.holdersWf → (act x).holdersWf) : (s.atRoundBegin act).holdersWf := by
  obtain ⟨before, after, heq⟩ := s.atRoundBegin_eq act
  rw [heq]
  exact ha { s with mm := before } h

/-! ## The holder list at a change of the records (R150) -/

/-- At a fitted tuner the holder list is the one set. -/
theorem State.setHolders_holders {s : State} (h : s.cl.values.tunerFitted = true) (hs : List Zone) :
    (s.setHolders hs).tb.holders = hs := by
  simp only [State.setHolders, h, Bool.not_true, Bool.false_or]
  split
  · simp_all
  · split <;> simp

theorem State.setHolders_unfitted {s : State} (h : s.cl.values.tunerFitted = false) (hs : List Zone) : s.setHolders hs = s := by
  simp [State.setHolders, h]

/-- The zones that hold the tuner are those whose record names its stream. -/
def State.HoldersFollow (s : State) : Prop :=
  s.tb.holders.Nodup ∧ ∀ z : Zone, z ∈ s.tb.holders ↔ s.zt.records[z].program = some (s.ownStream .t)

/-- In a joined station the form is what a fitted tuner's list follows, or that there is none. -/
theorem State.holdersWf_joined {s : State} (h : s.cl.joined = true) :
    s.holdersWf ↔ (if s.cl.values.tunerFitted = true then s.HoldersFollow else s.tb.holders = [])
      ∧ s.cl.imageRead = true ∧ s.inReset = false := by
  simp only [State.holdersWf, State.HoldersFollow, h, true_implies, reduceCtorEq, false_implies, true_and]
  split
  · tauto
  · constructor
    · rintro ⟨-, hnil, hrest⟩
      exact ⟨hnil, hrest⟩
    · rintro ⟨hnil, hrest⟩
      exact ⟨by simp [hnil], hnil, hrest⟩

/-- The list that moveHolder leaves follows the records, where the list before followed them with one zone's old program. -/
theorem State.moveHolder_follows {s : State} (hfitted : s.cl.values.tunerFitted = true) {zone : Zone} {old : Option Stream}
    (hnodup : s.tb.holders.Nodup)
    (hmem : ∀ z : Zone, z ∈ s.tb.holders ↔ (if z = zone then old else s.zt.records[z].program) = some (s.ownStream .t)) :
    (s.moveHolder zone old s.zt.records[zone].program).HoldersFollow := by
  have hrecords : (s.moveHolder zone old s.zt.records[zone].program).zt = s.zt := by simp
  have hown : (s.moveHolder zone old s.zt.records[zone].program).ownStream .t = s.ownStream .t := by
    simp [State.ownStream, State.own]
  have hzone : zone ∈ s.tb.holders ↔ old = some (s.ownStream .t) := by simpa using hmem zone
  have hother : ∀ z, z ≠ zone → (z ∈ s.tb.holders ↔ s.zt.records[z].program = some (s.ownStream .t)) := fun z hz => by
    simpa [hz] using hmem z
  simp only [State.HoldersFollow, hrecords, hown]
  simp only [State.moveHolder]
  by_cases hsame : old = s.zt.records[zone].program
  · simp only [hsame, beq_self_eq_true, if_true]
    refine ⟨hnodup, fun z => ?_⟩
    by_cases hz : z = zone
    · subst hz
      rw [hzone]
      exact Eq.congr_left hsame
    · exact hother z hz
  · rw [if_neg (by simpa using hsame), State.setHolders_holders hfitted]
    have hkept : ∀ z, z ∈ (if old == some (s.ownStream .t) then s.tb.holders.filter (· != zone) else s.tb.holders)
        ↔ z ≠ zone ∧ s.zt.records[z].program = some (s.ownStream .t) := fun z => by
      by_cases hz : z = zone
      · subst hz
        split <;> simp_all
      · have := hother z hz
        split <;> simp_all
    have hkeptNodup : (if old == some (s.ownStream .t) then s.tb.holders.filter (· != zone) else s.tb.holders).Nodup := by
      split
      · exact hnodup.filter _
      · exact hnodup
    by_cases hnew : s.zt.records[zone].program = some (s.ownStream .t)
    · rw [if_pos (by simpa using hnew)]
      refine ⟨?_, fun z => ?_⟩
      · rw [List.nodup_append_comm]
        exact List.nodup_cons.mpr ⟨fun h => absurd rfl ((hkept zone).mp h).1, hkeptNodup⟩
      · rw [List.mem_append, hkept, List.mem_singleton]
        by_cases hz : z = zone
        · subst hz
          exact ⟨fun _ => hnew, fun _ => .inr rfl⟩
        · simp [hz]
    · rw [if_neg (by simpa using hnew)]
      refine ⟨hkeptNodup, fun z => ?_⟩
      rw [hkept]
      by_cases hz : z = zone
      · subst hz
        exact ⟨fun h => absurd rfl h.1, fun h => absurd h hnew⟩
      · simp [hz]

theorem State.rebuildHolders_follows {s : State} (hfitted : s.cl.values.tunerFitted = true) : s.rebuildHolders.HoldersFollow := by
  have hown : s.rebuildHolders.ownStream .t = s.ownStream .t := by simp [State.ownStream, State.own]
  have hlist : s.rebuildHolders.tb.holders = (List.finRange 4).filter fun z => s.zt.records[z].program == some (s.ownStream .t) :=
    State.setHolders_holders hfitted _
  have hrecords : s.rebuildHolders.zt = s.zt := by simp
  simp only [State.HoldersFollow, hown, hlist, hrecords]
  exact ⟨(List.nodup_finRange 4).filter _, fun z => by simp⟩

theorem State.handRecords_holdersWf {s : State} (h : s.holdersWf) (old : ZoneRecord) : (s.handRecords old).holdersWf :=
  State.holdersWf_frame h (by simp) (by simp) (by simp) (by simp)

theorem ZoneTable.applySet_program_other {zt : ZoneTable} {f : ZoneSetFields} {z : Zone} (h : z ≠ f.zone) (marking : Bool) :
    (zt.applySet f marking).records[z] = zt.records[z] := by
  have hval : f.zone.val ≠ z.val := fun e => h (Fin.ext e.symm)
  simp [ZoneTable.applySet, hval]

theorem State.applyZoneSet_holdersWf {s : State} (hj : s.cl.joined = true) (h : s.holdersWf) (f : ZoneSetFields) :
    (s.applyZoneSet f).holdersWf := by
  refine State.handRecords_holdersWf ?_ _
  obtain ⟨hlist, himage, hreset⟩ := (State.holdersWf_joined hj).mp h
  refine (State.holdersWf_joined (by simpa using hj)).mpr ⟨?_, by simpa using himage, by simpa [State.inReset] using hreset⟩
  cases hfitted : s.cl.values.tunerFitted with
  | false =>
    have hnil : s.tb.holders = [] := by simpa [hfitted] using hlist
    simp only [State.moveHolder_frame, hfitted, Bool.false_eq_true, if_false]
    simp only [State.moveHolder]
    split
    · exact hnil
    · rw [State.setHolders_unfitted (by exact hfitted)]
      exact hnil
  | true =>
    obtain ⟨hnodup, hmem⟩ : s.HoldersFollow := by simpa [hfitted] using hlist
    simp only [State.moveHolder_frame, hfitted, if_true]
    refine State.moveHolder_follows (by exact hfitted) hnodup fun z => ?_
    by_cases hz : z = f.zone
    · subst hz
      rw [if_pos rfl]
      exact hmem f.zone
    · rw [if_neg hz, ZoneTable.applySet_program_other hz]
      exact hmem z

theorem State.applyZoneState_holdersWf {s : State} (hj : s.cl.joined = true) (h : s.holdersWf) (carried : Vector ZoneRecord 4) :
    (s.applyZoneState carried).holdersWf := by
  refine State.handRecords_holdersWf ?_ _
  obtain ⟨hlist, himage, hreset⟩ := (State.holdersWf_joined hj).mp h
  refine (State.holdersWf_joined (by simpa using hj)).mpr ⟨?_, by simpa using himage, by simpa [State.inReset] using hreset⟩
  cases hfitted : s.cl.values.tunerFitted with
  | false =>
    have hnil : s.tb.holders = [] := by simpa [hfitted] using hlist
    simp only [State.rebuildHolders_frame, hfitted, Bool.false_eq_true, if_false]
    rw [State.rebuildHolders, State.setHolders_unfitted (by exact hfitted)]
    exact hnil
  | true =>
    simp only [State.rebuildHolders_frame, hfitted, if_true]
    exact State.rebuildHolders_follows (by exact hfitted)

/-! ## The events that touch the station's configuration -/

theorem State.holdersWf_resetWith (sectors : Vector Sector 2) (rc : ResetControl) (pins : Pins) (draws : Nat) (pending : List Instr) :
    (State.resetWith sectors rc pins draws pending).holdersWf := by
  have hrecord : ∀ z : Zone, (State.resetWith sectors rc pins draws pending).zt.records[z].program = none := fun z => by
    simp [State.resetWith, ZoneTable.reset, ZoneRecord.reset]
  exact ⟨.nil, rfl, fun _ => hrecord, fun h => absurd h (by simp [State.resetWith, Configuration.reset])⟩

/-- Before the entry to JOINING no zone has a program, so that the list is empty, whatever the configuration. -/
theorem State.holdersWf_unjoined {s : State} (hj : s.cl.joined = false) :
    s.holdersWf ↔ s.tb.holders = [] ∧ ∀ z : Zone, s.zt.records[z].program = none := by
  simp only [State.holdersWf, hj, true_implies, Bool.false_eq_true, false_implies, and_true]
  constructor
  · rintro ⟨-, hlist, hnone⟩
    refine ⟨?_, hnone⟩
    split at hlist
    · exact List.eq_nil_iff_forall_not_mem.mpr fun z hz => nomatch (hnone z).symm.trans ((hlist z).mp hz)
    · exact hlist
  · rintro ⟨hnil, hnone⟩
    refine ⟨by simp [hnil], ?_, hnone⟩
    split
    · intro z
      rw [hnil, hnone z]
      simp
    · exact hnil

/-- An image is read before the entry to JOINING. -/
theorem State.configure_holdersWf {s : State} (h : s.holdersWf) (hread : s.cl.imageRead = false) (v : Option ConfigValues) :
    (s.configure v).holdersWf := by
  have hj : s.cl.joined = false := by
    obtain ⟨-, -, -, himage⟩ := h
    by_contra hj
    simp [(himage (by simpa using hj)).1] at hread
  exact (State.holdersWf_unjoined (s := s.configure v) hj).mpr ((State.holdersWf_unjoined hj).mp h)

theorem State.startJoin_holdersWf {s : State} (h : s.holdersWf) (hj : s.cl.joined = false) (hreset : s.inReset = false)
    (hread : s.cl.imageRead = true) : s.startJoin.holdersWf := by
  obtain ⟨hnil, hnone⟩ := (State.holdersWf_unjoined hj).mp h
  have hrecords : s.startJoin.zt.records = s.zt.records := by simp
  have hholders : s.startJoin.tb.holders = [] := by simpa using hnil
  refine (State.holdersWf_joined (by simp [State.startJoin])).mpr ⟨?_, by simpa [State.startJoin] using hread, by simpa [State.inReset] using hreset⟩
  split
  · refine ⟨by rw [hholders]; exact .nil, fun z => ?_⟩
    rw [hholders, hrecords, hnone z]
    simp
  · exact hholders

theorem ResetControl.not_holds_set {rc : ResetControl} (h : rc.holds = false) (cause : ResetCause) : (rc.set cause false).holds = false := by
  cases cause <;> simp_all [ResetControl.holds, ResetControl.set]

/-- A station that leaves reset, or stays in it, has not joined. -/
theorem State.leaveReset_holdersWf {s t : State} (h : s.holdersWf) (hheld : s.rc.holds = true) (htb : t.tb.holders = s.tb.holders)
    (hz : t.zt.records = s.zt.records) (hcl : t.cl.joined = s.cl.joined) : t.holdersWf := by
  have hj : s.cl.joined = false := by
    obtain ⟨-, -, -, hout⟩ := h
    by_contra hj
    have := (hout (by simpa using hj)).2
    simp_all [State.inReset, ResetControl.holds]
  rw [State.holdersWf_unjoined (hcl.trans hj), htb, hz]
  exact (State.holdersWf_unjoined hj).mp h

/-! ## The commands -/

theorem State.roundBegin_holdersWf {s : State} (h : s.holdersWf) (r : RoundBegin) : (s.roundBegin r).holdersWf := by
  have hframe : ∀ x y : State, y.tb.holders = x.tb.holders → y.zt.records = x.zt.records → y.cl = x.cl → y.rc = x.rc → x.holdersWf →
      y.holdersWf := fun x y htb hz hcl hrc hx => State.holdersWf_frame hx htb hz hcl hrc
  apply State.roundBegin_keeps (P := State.holdersWf) (h := h)
  case receiverRound | sourceRound => exact fun _ x => hframe x _ (by simp) (by simp) (by simp) (by simp)
  all_goals exact fun x => hframe x _ (by simp) (by simp) (by simp) (by simp)

@[simp] theorem State.faultEvent_holders (s : State) (n : OutputNo) (edge : FaultEdge) :
    (s.faultEvent n edge).tb = s.tb ∧ (s.faultEvent n edge).cl = s.cl ∧ (s.faultEvent n edge).rc = s.rc := by
  simp only [State.faultEvent]
  split
  · obtain ⟨before, after, heq⟩ := s.atRoundBegin_eq fun x => ((x.countFault n).holdSteps n).switchIfDown
    simp [heq]
  · simp

theorem State.onRoleMap_holdersWf {s : State} (h : s.holdersWf) (k : Station) (p : List Byte) : (s.onRoleMap k p).holdersWf := by
  refine State.holdersWf_of h (by simp) (by simp) ?_ ?_ ?_ ?_ (by simp) <;>
    simp only [State.onRoleMap] <;> split <;> simp [State.mapRole]

open State in
/-- Every command keeps the form of the tuner's holder list. -/
theorem exec_keeps_holders {i : Instr} {s t : State} (h : s.holdersWf) (he : exec i s = .next t) : t.holdersWf := by
  have hframe : ∀ x y : State, x.holdersWf → y.tb.holders = x.tb.holders → y.zt.records = x.zt.records → y.cl = x.cl → y.rc = x.rc →
      y.closeEvent.holdersWf := fun x y hx htb hz hcl hrc => closeEvent_holdersWf (holdersWf_frame hx htb hz hcl hrc)
  cases i <;> cases he
  case roundBegin r =>
    split
    · exact closeEvent_holdersWf (roundBegin_holdersWf h r)
    · exact h
  case zoneSet p =>
    refine onTake_holdersWf _ h fun _ x hj hx => ?_
    split
    · exact applyZoneSet_holdersWf hj hx _
    · exact holdersWf_frame hx (by simp) (by simp) (by simp) (by simp)
  case zoneState p =>
    refine onTake_holdersWf _ h fun _ x hj hx => ?_
    split
    · exact applyZoneState_holdersWf hj hx _
    · exact holdersWf_frame hx (by simp) (by simp) (by simp) (by simp)
  case imageRead =>
    split
    next hc => exact closeEvent_holdersWf (configure_holdersWf h (by simp_all) _)
    next => exact h
  case joinStart =>
    split
    next hc =>
      simp only [Bool.and_eq_true, Bool.not_eq_true'] at hc
      obtain ⟨⟨⟨hreset, hread⟩, -⟩, hj⟩ := hc
      exact closeEvent_holdersWf (startJoin_holdersWf h hj hreset hread)
    next => exact h
  case leaveReset cause straps =>
    dsimp only
    split
    next hc => exact leaveReset_holdersWf h (by simp_all) rfl rfl rfl
    next hc =>
      cases hheld : s.rc.holds with
      | true => exact leaveReset_holdersWf h hheld rfl rfl rfl
      | false =>
        have hreset := ResetControl.not_holds_set hheld cause
        obtain ⟨hnodup, hlist, hnone, hout⟩ := h
        exact ⟨hnodup, hlist, hnone, fun hj => ⟨(hout hj).1, hreset⟩⟩
  case reset => exact holdersWf_resetWith _ _ _ _ _
  case claim | release | presence =>
    exact onTake_holdersWf _ h fun _ x _ hx => holdersWf_frame hx (by simp) (by simp) (by simp) (by simp)
  case reply | listPage | presetData | status | unknownKind => exact onTake_holdersWf _ h fun _ _ _ hx => hx
  case roleMap => exact onRequest_holdersWf _ _ _ h fun x hx => onRoleMap_holdersWf hx _ _
  case tune | seek | scan | presetRecall | presetStore | presetClear | presetRead | listRead | statusQuery =>
    exact onRequest_holdersWf _ _ _ h fun x hx => holdersWf_frame hx (by simp) (by simp) (by simp) (by simp)
  case messageVoided =>
    split
    · exact holdersWf_frame h (by simp) (by simp) (by simp) (by simp)
    · exact h
  case peerAbsence | watchdogExpiry | rampDownComplete | holdoverExpiry | joinWindowEnd =>
    split
    · refine closeEvent_holdersWf (atRoundBegin_holdersWf h fun x hx => ?_)
      exact holdersWf_frame hx (by simp) (by simp) (by simp) (by simp)
    · exact h
  case takeoverTimerExpiry | rampUpComplete | overloadDecay | settleEnd | unheldTimeout | supplyMoveToLow
      | faultRecoveryEnd | clockGained | acquiringEnd | syncLost | gateClose | supplyMoveToNormal | recoveryEnd
      | readComplete | programmingCommit | supersedingEnd | erasingEnd | copyingEnd | headerEnd | slotEnd | slotExpiry =>
    split
    · exact hframe s _ h (by simp) (by simp) (by simp) (by simp)
    · exact h
  case clockLost | syncPattern | blockCompletion => exact hframe s _ h (by simp) (by simp) (by simp) (by simp)
  case muteLineAssert | muteLineRelease => exact holdersWf_frame h (by simp) (by simp) (by simp) (by simp)
  case outputFault =>
    dsimp only
    split
    · exact hframe s _ h (by simp) (by simp) (by simp) (by simp)
    · exact h
  case senderMarkDue =>
    split
    · split <;> exact h
    · exact h
  case readSuspendDelayEnd => split <;> exact h
  case carrierBoundary => split <;> exact h

end Sys2Proof.Machine

namespace Sys2Proof.Proofs

open Sys2Proof.Machine

/-- Settles O29: the zone records and their marks by the operations that write them, the holder list by the records that it follows. -/
theorem everyStepKeepsTheZones : Obligations.EveryStepKeepsTheZones :=
  ⟨fun _ _ => step_keeps (P := State.zonesWf) (fun _ h => State.zonesWf_frame h rfl rfl rfl) (fun _ _ h => h)
      fun _ _ _ => exec_keeps_zones,
    fun _ _ => step_keeps (P := State.holdersWf) (fun _ h => State.holdersWf_frame h rfl rfl rfl rfl) (fun _ _ h => h)
      fun _ _ _ => exec_keeps_holders⟩

end Sys2Proof.Proofs
end

section
/-! Proofs about the output records (R125 to R142): each change of one record keeps the record's form, and each operation of the part makes changes
of that kind alone. -/

namespace Sys2Proof.Machine

/-! ## One record -/

/-- A record that differs in its role status, its attenuation and the steps made for the coming round begin alone. -/
theorem OutputRecord.wf_of_eq {o p : OutputRecord} (h : o.wf) (hp : p = { o with roleStatus := p.roleStatus, atten := p.atten, taken := p.taken }) :
    p.wf := by
  rw [hp]
  exact h

theorem OutputRecord.overload_le {o : OutputRecord} (h : o.wf) (hs : o.state ≠ .off) (hr : o.state ≠ .retired) : o.overload ≤ 3 := by
  obtain ⟨-, -, -, hle, hfour, -⟩ := h
  have hne : o.overload ≠ 4 := fun h4 => (hfour h4).elim hr hs
  omega

theorem OutputRecord.toOff_wf {o : OutputRecord} (h : o.wf) : o.toOff.wf := by
  simp_all [OutputRecord.wf, OutputRecord.toOff, OutState.sounding]

theorem OutputRecord.toSilent_wf {o : OutputRecord} (h : o.wf) (hload : o.overload ≤ 3) : o.toSilent.wf := by
  have : o.overload ≠ 4 := by omega
  simp_all [OutputRecord.wf, OutputRecord.toSilent, OutState.sounding]

theorem OutputRecord.toRest_wf {o : OutputRecord} (h : o.wf) (hload : o.overload ≤ 3) (active : Bool) : (o.toRest active).wf := by
  cases active
  · exact OutputRecord.toOff_wf h
  · exact OutputRecord.toSilent_wf h hload

theorem OutputRecord.toRetired_wf {o : OutputRecord} (h : o.wf) (hload : o.overload = 4) : o.toRetired.wf := by
  simp_all [OutputRecord.wf, OutputRecord.toRetired, OutState.sounding]

/-- The record after one more fault has its form by its width and an overload count below 4 before it. -/
theorem OutputRecord.fault_wf {o : OutputRecord} (hload : o.overload ≤ 3) (hlow : 8 ≤ o.width) (hhigh : o.width ≤ 248) : o.fault.wf := by
  simp only [OutputRecord.fault]
  split
  · have hne : o.overload ≠ 3 := by omega
    have hlt : o.overload < 4 := by omega
    simp_all [OutputRecord.wf, OutputRecord.toFaulted, OutState.sounding]
  · have : o.overload = 3 := by omega
    simp_all [OutputRecord.wf, OutputRecord.toRetired, OutState.sounding]

theorem OutputRecord.evaluate_wf {o : OutputRecord} (h : o.wf) (start continues : Bool) : (o.evaluate start continues).wf := by
  simp only [OutputRecord.evaluate]
  split <;> (try split) <;> simp_all [OutputRecord.wf, OutState.sounding]

theorem OutputRecord.rampMove_wf {o : OutputRecord} (h : o.wf) (active : Bool) : (o.rampMove active).wf := by
  simp only [OutputRecord.rampMove]
  split
  case h_1 => split <;> simp_all [OutputRecord.wf, OutState.sounding]; omega
  case h_2 hs => 
    split
    · exact OutputRecord.toRest_wf h (OutputRecord.overload_le h (by simp [hs]) (by simp [hs])) active
    · simp_all [OutputRecord.wf, OutState.sounding]
      omega
  all_goals exact h

theorem OutputRecord.rampStep_wf {o : OutputRecord} (h : o.wf) (active : Bool) : (o.rampStep active).wf := by
  simp only [OutputRecord.rampStep]
  split
  · exact OutputRecord.wf_of_eq h rfl
  · exact OutputRecord.rampMove_wf h active

theorem OutputRecord.rampAhead_wf {o : OutputRecord} (h : o.wf) (active : Bool) : (o.rampAhead active).wf :=
  OutputRecord.wf_of_eq (OutputRecord.rampMove_wf h active) rfl

theorem OutputRecord.cut_wf {o : OutputRecord} (h : o.wf) (active : Bool) : (o.cut active).wf := by
  simp only [OutputRecord.cut]
  split
  next hs =>
    refine OutputRecord.toRest_wf h (OutputRecord.overload_le h ?_ ?_) active <;> intro he <;> simp [he, OutState.sounding] at hs
  next => exact h

theorem OutputRecord.decayMove_wf {o : OutputRecord} (h : o.wf) : o.decayMove.wf := by
  simp only [OutputRecord.decayMove]
  split
  next hload =>
    obtain ⟨hone, hthree⟩ := hload
    have hne : o.overload ≠ 4 := by omega
    have hne' : o.overload ≠ 0 := by omega
    split <;> simp_all [OutputRecord.wf]; omega
  next => exact h

theorem OutputRecord.decayStep_wf {o : OutputRecord} (h : o.wf) : o.decayStep.wf := by
  simp only [OutputRecord.decayStep]
  split
  · exact OutputRecord.wf_of_eq h rfl
  · exact OutputRecord.decayMove_wf h

theorem OutputRecord.slew_wf {o : OutputRecord} (h : o.wf) (volume : Nat) : (o.slew volume).wf := OutputRecord.wf_of_eq h rfl

/-- One round less on the recovered mark, and one less on the recovery count where it does not end. -/
theorem OutputRecord.fewerRounds_wf {o p : OutputRecord} (h : o.wf)
    (hp : p = { o with recovered := o.recovered - 1, recovery := p.recovery, taken := p.taken })
    (hr : (o.state = .faulted → 1 < o.recovery) ∧ p.recovery = o.recovery - 1 ∨ p.recovery = o.recovery) : p.wf := by
  obtain ⟨hramp, hrest, hplay, hload, hfour, hretired, hfaulted, hother, hrec, hoff, hrest'⟩ := h
  rw [hp]
  refine ⟨hramp, hrest, hplay, hload, hfour, hretired, fun hs => ?_, fun hs => ?_, Nat.sub_le_of_le_add (by omega), fun hne => hoff (by dsimp only at hne; omega),
    hrest'⟩
  · have hcount := hfaulted hs
    rcases hr with ⟨hlong, hr⟩ | hr
    · have := hlong hs
      rw [hr]
      omega
    · rwa [hr]
  · have hzero := hother hs
    rcases hr with ⟨-, hr⟩ | hr <;> rw [hr, hzero]

theorem widthOfSum_bounds (sum gain80 : Int) (atten ramp : Nat) :
    8 ≤ widthOfSum sum gain80 atten ramp ∧ widthOfSum sum gain80 atten ramp ≤ 248 := by
  have hk : ∀ num den e, nearest120 num den e ≤ 120 := fun num den e =>
    (List.length_filter_le _ _).trans (by simp)
  simp only [widthOfSum]
  split
  · decide
  · have := hk (120 * ramp * sum.natAbs) (16 * 1000 * 2 ^ 24) (gain80 - 2 * atten)
    split <;> omega

theorem State.widthNow_bounds (s : State) (n : OutputNo) (period : Nat) : 8 ≤ s.widthNow n period ∧ s.widthNow n period ≤ 248 := by
  simp only [State.widthNow]
  split
  · exact widthOfSum_bounds _ _ _ _
  · decide

theorem State.boundaryOutput_wf (s : State) (period : Nat) (n : OutputNo) {o : OutputRecord} (h : o.wf) :
    (s.boundaryOutput period n o).wf := by
  have hbounds := s.widthNow_bounds n period
  simp only [State.boundaryOutput]
  split <;> simp_all [OutputRecord.wf]

/-! ## All four records -/

theorem State.outputsWf_of_om {s t : State} (h : s.outputsWf) (ho : t.om = s.om) : t.outputsWf := by
  simp only [State.outputsWf, ho]
  exact h

theorem State.setOutput_outputs (s : State) (n j : OutputNo) (o : OutputRecord) :
    (s.setOutput n o).om.outputs[j] = if n = j then o else s.om.outputs[j] :=
  set_getElem s.om.outputs n j o

@[simp] theorem State.mapOutputs_outputs (s : State) (f : OutputNo → OutputRecord → OutputRecord) (n : OutputNo) :
    (s.mapOutputs f).om.outputs[n] = f n s.om.outputs[n] :=
  ofFn_getElem _ n

theorem State.setOutput_outputsWf {s : State} (h : s.outputsWf) (n : OutputNo) {o : OutputRecord} (ho : o.wf) :
    (s.setOutput n o).outputsWf := fun j => by
  rw [State.setOutput_outputs]
  split
  · exact ho
  · exact h j

theorem State.mapOutputs_outputsWf {s : State} (h : s.outputsWf) {f : OutputNo → OutputRecord → OutputRecord}
    (hf : ∀ n o, OutputRecord.wf o → (f n o).wf) : (s.mapOutputs f).outputsWf := fun n => by
  rw [State.mapOutputs_outputs]
  exact hf n _ (h n)

/-- What an operation keeps at each output it keeps at the four in turn. -/
theorem State.eachOutput_keeps {P : State → Prop} {s : State} {f : State → OutputNo → State} (h : P s)
    (hf : ∀ x n, P x → P (f x n)) : P (s.eachOutput f) :=
  hf _ _ (hf _ _ (hf _ _ (hf _ _ h)))

theorem State.evalGo_outputsWf {s : State} (h : s.outputsWf) : s.evalGo.outputsWf :=
  State.mapOutputs_outputsWf h fun _ _ ho => OutputRecord.evaluate_wf ho _ _

theorem State.rampRound_outputsWf {s : State} (h : s.outputsWf) : s.rampRound.outputsWf :=
  State.outputsWf_of_om (s := s.rampStep)
    (State.evalGo_outputsWf (State.mapOutputs_outputsWf h fun _ _ ho => OutputRecord.rampStep_wf ho _)) (by simp [State.rampRound])

theorem State.cut_outputsWf {s : State} (h : s.outputsWf) : s.cut.outputsWf :=
  State.evalGo_outputsWf (State.mapOutputs_outputsWf h fun _ _ ho => OutputRecord.cut_wf ho _)

/-! ## Faults and recovery (R133 to R137) -/

theorem State.countFault_om (s : State) (n : OutputNo) : (s.countFault n).om = (s.setOutput n s.om.outputs[n].fault).om := by
  simp [State.countFault]

theorem State.countFault_outputsWf {s : State} (h : s.outputsWf) (n : OutputNo) (hload : s.om.outputs[n].overload ≤ 3) :
    (s.countFault n).outputsWf := by
  obtain ⟨-, -, -, -, -, -, -, -, -, -, -, -, -, hlow, hhigh⟩ := h n
  exact State.outputsWf_of_om (State.setOutput_outputsWf h n (OutputRecord.fault_wf hload hlow hhigh)) (s.countFault_om n)

/-- An assertion that is a fault finds an overload count below 4. -/
theorem OutputRecord.overload_of_faultable {o : OutputRecord} (h : o.wf) {edge : FaultEdge} (hf : o.faultable edge = true) :
    o.overload ≤ 3 := by
  by_cases hrec : o.recovered = 0
  · refine OutputRecord.overload_le h ?_ ?_ <;> intro hs <;> cases edge <;>
      simp [OutputRecord.faultable, hs, hrec, OutState.countsFaults] at hf
  · obtain ⟨-, -, -, -, -, -, -, -, -, hoff, -⟩ := h
    exact (hoff hrec).2

/-- The record that the end of recovery leaves before the go condition is evaluated (R134). -/
theorem State.endRecovery_outputs (s : State) (n : OutputNo) :
    ∃ x : State, s.endRecovery n = x.evalGo ∧ x.om =
      (s.setOutput n (if s.pins.faultLines[n] = true then { s.om.outputs[n] with recovery := 0 }.fault else s.om.outputs[n].toRest s.isActive)).om := by
  refine ⟨_, rfl, ?_⟩
  dsimp only
  split
  · simp [State.countFault_om, State.setOutput]
  · simp

theorem State.endRecovery_outputsWf {s : State} (h : s.outputsWf) (n : OutputNo) (hs : s.om.outputs[n].state = .faulted) :
    (s.endRecovery n).outputsWf := by
  obtain ⟨x, heq, hom⟩ := s.endRecovery_outputs n
  have hload := OutputRecord.overload_le (h n) (by rw [hs]; decide) (by rw [hs]; decide)
  obtain ⟨-, -, -, -, -, -, -, -, -, -, -, -, -, hlow, hhigh⟩ := h n
  rw [heq]
  refine State.evalGo_outputsWf (State.outputsWf_of_om (State.setOutput_outputsWf h n ?_) hom)
  split
  · exact OutputRecord.fault_wf hload hlow hhigh
  · exact OutputRecord.toRest_wf (h n) hload _

/-- An output OFF after the end of its recovery keeps an overload count below 4. -/
theorem State.endRecovery_overload {s : State} (h : s.outputsWf) (n : OutputNo) (hs : s.om.outputs[n].state = .faulted)
    (hoff : (s.endRecovery n).om.outputs[n].state = .off) : (s.endRecovery n).om.outputs[n].overload ≤ 3 := by
  obtain ⟨x, heq, hom⟩ := s.endRecovery_outputs n
  have hload := OutputRecord.overload_le (h n) (by rw [hs]; decide) (by rw [hs]; decide)
  have hsame : (s.endRecovery n).om.outputs[n].overload = x.om.outputs[n].overload := by
    rw [heq]
    simp only [State.evalGo, State.mapOutputs_outputs, OutputRecord.evaluate]
    (repeat' split) <;> rfl
  have hstate : x.om.outputs[n].state = .off := by
    rw [heq] at hoff
    simp only [State.evalGo, State.mapOutputs_outputs, OutputRecord.evaluate] at hoff
    split at hoff <;> (try split at hoff) <;> simp_all
  rw [hsame]
  rw [hom, State.setOutput_outputs, if_pos rfl] at hstate ⊢
  split at hstate
  next =>
    simp only [OutputRecord.fault] at hstate
    split at hstate <;> simp [OutputRecord.toFaulted, OutputRecord.toRetired] at hstate
  next hline =>
    rw [if_neg hline]
    cases s.isActive <;> exact hload

theorem State.recoverAt_outputsWf {s : State} (h : s.outputsWf) (n : OutputNo) (hs : s.om.outputs[n].state = .faulted) {begins : Nat}
    (hb : begins ≤ 2) : (s.recoverAt n begins).outputsWf := by
  have hend := State.endRecovery_outputsWf h n hs
  refine State.setOutput_outputsWf hend n ?_
  have hn := hend n
  simp only [OutputRecord.recoverAt]
  split
  next hoff =>
    have hstate : (s.endRecovery n).om.outputs[n].state = .off := by simpa using hoff
    have hload := State.endRecovery_overload h n hs hstate
    simp_all [OutputRecord.wf]
  next => simp_all [OutputRecord.wf]

theorem State.recoveryStep_outputsWf {s : State} (h : s.outputsWf) (n : OutputNo) : (s.recoveryStep n).outputsWf := by
  have hn := h n
  simp only [State.recoveryStep]
  split
  · exact State.setOutput_outputsWf h n (OutputRecord.fewerRounds_wf hn rfl (.inr rfl))
  · split
    next hc => exact State.recoverAt_outputsWf h n (by simp_all) (by decide)
    next hc =>
      simp only [Bool.and_eq_true, beq_iff_eq, decide_eq_true_eq, not_and, not_le] at hc
      exact State.setOutput_outputsWf h n (OutputRecord.fewerRounds_wf hn rfl (.inl ⟨hc, rfl⟩))

/-! ## Modes and roles (R43 to R45, R85, R91) -/

theorem State.countFaultIf_outputsWf {s : State} (h : s.outputsWf) (n : OutputNo) (hload : s.om.outputs[n].overload ≤ 3) (b : Bool) :
    (s.countFaultIf n b).outputsWf := by
  cases b
  · exact h
  · exact State.countFault_outputsWf h n hload

theorem State.activateOutput_outputsWf {s : State} (h : s.outputsWf) (n : OutputNo) : (s.activateOutput n).outputsWf := by
  simp only [State.activateOutput]
  split
  · split
    next hfour =>
      exact State.outputsWf_of_om (State.setOutput_outputsWf h n (OutputRecord.toRetired_wf (h n) (by simpa using hfour))) (by simp)
    next hfour =>
      have hload : s.om.outputs[n].overload ≤ 3 := by
        obtain ⟨-, -, -, hle, -⟩ := h n
        have hne : s.om.outputs[n].overload ≠ 4 := by simpa using hfour
        omega
      refine State.countFaultIf_outputsWf (State.setOutput_outputsWf h n (OutputRecord.toSilent_wf (h n) hload)) n ?_ _
      rw [State.setOutput_outputs, if_pos rfl]
      exact hload
  · exact h

theorem State.quietOutput_outputsWf {s : State} (h : s.outputsWf) (n : OutputNo) : (s.quietOutput n).outputsWf := by
  simp only [State.quietOutput]
  split
  · exact State.setOutput_outputsWf h n (OutputRecord.toOff_wf (h n))
  · exact h

theorem State.standbyOutput_outputsWf {s : State} (h : s.outputsWf) (n : OutputNo) : (s.standbyOutput n).outputsWf :=
  State.outputsWf_of_om (s := s.setOutput n s.om.outputs[n].toOff) (State.setOutput_outputsWf h n (OutputRecord.toOff_wf (h n)))
    (by simp [State.standbyOutput])

theorem State.enterMode_outputsWf {s : State} (h : s.outputsWf) (old : Mode) : (s.enterMode old).outputsWf := by
  simp only [State.enterMode]
  have hawake : (if old == .standby then s.wake else s).outputsWf :=
    State.outputsWf_of_om h (by split <;> simp)
  split
  · exact State.evalGo_outputsWf (State.outputsWf_of_om
      (State.eachOutput_keeps hawake fun _ n hx => State.activateOutput_outputsWf hx n) (by simp))
  · exact State.evalGo_outputsWf (State.outputsWf_of_om
      (State.eachOutput_keeps hawake fun _ n hx => State.quietOutput_outputsWf hx n) (by simp))
  · exact State.evalGo_outputsWf (State.outputsWf_of_om
      (State.eachOutput_keeps h fun _ n hx => State.standbyOutput_outputsWf hx n) (by simp))
  · exact h

theorem State.changeMode_outputsWf {s : State} (h : s.outputsWf) (m : Mode) : (s.changeMode m).outputsWf := by
  simp only [State.changeMode]
  split
  · exact h
  · exact State.enterMode_outputsWf (State.outputsWf_of_om h (by simp)) _

theorem State.rederiveMode_outputsWf {s : State} (h : s.outputsWf) : s.rederiveMode.outputsWf := by
  simp only [State.rederiveMode]
  split
  · exact State.changeMode_outputsWf h _
  · exact h

theorem State.handRecords_outputsWf {s : State} (h : s.outputsWf) (old : ZoneRecord) : (s.handRecords old).outputsWf := by
  simp only [State.handRecords]
  refine State.evalGo_outputsWf (State.rederiveMode_outputsWf (State.outputsWf_of_om h ?_))
  split <;> simp

theorem State.applyZoneSet_outputsWf {s : State} (h : s.outputsWf) (f : ZoneSetFields) : (s.applyZoneSet f).outputsWf :=
  State.handRecords_outputsWf (State.outputsWf_of_om h (by simp)) _

theorem State.applyZoneState_outputsWf {s : State} (h : s.outputsWf) (carried : Vector ZoneRecord 4) :
    (s.applyZoneState carried).outputsWf :=
  State.handRecords_outputsWf (State.outputsWf_of_om h (by simp)) _

theorem State.changeTable_outputsWf {s : State} (h : s.outputsWf) (change : TableChange) (own : Option Source) :
    (s.changeTable change own).outputsWf :=
  State.rederiveMode_outputsWf (State.outputsWf_of_om h (by simp))

theorem State.judge_outputsWf {s : State} (h : s.outputsWf) (slot : SlotNo) (header : Option SlotHeader) :
    (s.judge slot header).outputsWf := by
  simp only [State.judge, State.afterTableLoss]
  split
  · exact State.rederiveMode_outputsWf (State.outputsWf_of_om h (by simp))
  · exact State.outputsWf_of_om h (by simp)

theorem State.slotEnds_outputsWf {s : State} (h : s.outputsWf) (slot : SlotNo) (heard : List Byte) : (s.slotEnds slot heard).outputsWf := by
  have hjudge := State.judge_outputsWf (s := s.hearSlot slot (validHeader s.rt.roundNumber slot heard))
    (State.outputsWf_of_om h (by simp)) slot ((validHeader s.rt.roundNumber slot heard).map (·.1))
  simp only [State.slotEnds]
  split
  · exact State.outputsWf_of_om hjudge (by simp)
  · exact hjudge

theorem State.setRoleStatuses_outputsWf {s : State} (h : s.outputsWf) : s.setRoleStatuses.outputsWf :=
  State.outputsWf_of_om (State.mapOutputs_outputsWf (f := fun n o => { o with roleStatus := s.roleStatusOf n }) h
    fun _ _ ho => OutputRecord.wf_of_eq ho rfl) (by simp [State.setRoleStatuses, State.eachOutput])

theorem State.deriveRoles_outputsWf {s : State} (h : s.outputsWf) : s.deriveRoles.outputsWf :=
  State.setRoleStatuses_outputsWf (State.outputsWf_of_om h (by simp))

theorem State.refreshEntry_outputsWf {s : State} (h : s.outputsWf) (k : Station) (c : Option PresenceContent) :
    (s.refreshEntry k c).outputsWf := by
  simp only [State.refreshEntry]
  split
  · exact State.evalGo_outputsWf (State.deriveRoles_outputsWf (State.outputsWf_of_om h rfl))
  · exact h

/-- The record that a ROLE MAP restores: no overload, at rest where it was RETIRED (R91). -/
theorem OutputRecord.restored_wf {o : OutputRecord} (h : o.wf) (hs : o.state ≠ .retired) : { o with overload := 0, decay := 0 }.wf := by
  simp_all [OutputRecord.wf]

theorem OutputRecord.restored_toRest_wf {o : OutputRecord} (h : o.wf) (active : Bool) :
    ({ o with overload := 0, decay := 0 }.toRest active).wf := by
  cases active <;> simp_all [OutputRecord.wf, OutputRecord.toRest, OutputRecord.toOff, OutputRecord.toSilent, OutState.sounding]

theorem State.restoreOutput_outputsWf {s : State} (h : s.outputsWf) (n : OutputNo) : (s.restoreOutput n).outputsWf := by
  have hset : (s.setCondition (.outputRetired n) false).outputsWf := State.outputsWf_of_om h (by simp)
  simp only [State.restoreOutput]
  split
  · refine State.countFaultIf_outputsWf (State.setOutput_outputsWf hset n (OutputRecord.restored_toRest_wf (h n) _)) n ?_ _
    rw [State.setOutput_outputs, if_pos rfl]
    cases s.isActive <;> exact Nat.zero_le _
  next hs => exact State.setOutput_outputsWf hset n (OutputRecord.restored_wf (h n) (by simpa using hs))

theorem State.mapRole_outputsWf {s : State} (h : s.outputsWf) (requester : Requester) (n : OutputNo) (role : Option Role) :
    (s.mapRole requester n role).outputsWf := by
  have hmapped : ({ s with cl := { s.cl with overrides := s.cl.overrides.set n (some role) } } : State).outputsWf := h
  have hroles := State.setRoleStatuses_outputsWf (State.restoreOutput_outputsWf hmapped n)
  exact State.outputsWf_of_om (State.evalGo_outputsWf (State.outputsWf_of_om hroles (by simp only [State.announce_frame]))) rfl

theorem State.onRoleMap_outputsWf {s : State} (h : s.outputsWf) (k : Station) (p : List Byte) : (s.onRoleMap k p).outputsWf := by
  simp only [State.onRoleMap]
  split
  · exact State.mapRole_outputsWf h _ _ _
  · exact State.outputsWf_of_om h (by simp)

/-! ## Rounds -/

theorem State.handDiscipline_outputsWf {s : State} (h : s.outputsWf) (old : Discipline) : (s.handDiscipline old).outputsWf := by
  simp only [State.handDiscipline]
  split
  · exact State.cut_outputsWf (State.outputsWf_of_om h (by simp))
  · exact State.outputsWf_of_om h (by simp)

theorem State.fireWatchdog_outputsWf {s : State} (h : s.outputsWf) : s.fireWatchdog.outputsWf := by
  simp only [State.fireWatchdog]
  split
  · exact State.cut_outputsWf (State.outputsWf_of_om h (by simp))
  · exact State.outputsWf_of_om h (by simp)

theorem State.presentRunning_outputsWf {s : State} (h : s.outputsWf) (e : RingEntry) : (s.presentRunning e).outputsWf := by
  simp only [State.presentRunning]
  split
  · exact State.outputsWf_of_om h (by simp)
  · simp only [State.countMissing]
    split
    · exact State.fireWatchdog_outputsWf (State.outputsWf_of_om h (by simp))
    · exact State.outputsWf_of_om h (by simp)

theorem State.present_outputsWf {s : State} (h : s.outputsWf) : s.present.outputsWf := by
  simp only [State.present]
  split
  · exact State.outputsWf_of_om h (by simp)
  · split
    · exact State.outputsWf_of_om h (by simp)
    · exact State.outputsWf_of_om h (by simp)
    · simp only [State.presentFilling]
      split
      · exact State.presentRunning_outputsWf (State.outputsWf_of_om h (by simp)) _
      · exact State.outputsWf_of_om h (by simp)
    · exact State.presentRunning_outputsWf h _

theorem State.receiverRound_outputsWf {s : State} (h : s.outputsWf) (d : Nat) : (s.receiverRound d).outputsWf := by
  simp only [State.receiverRound]
  split
  · exact State.present_outputsWf h
  · exact State.outputsWf_of_om h (by simp)

theorem State.outputRound_outputsWf {s : State} (h : s.outputsWf) : s.outputRound.outputsWf :=
  State.eachOutput_keeps
    (State.mapOutputs_outputsWf h fun _ _ ho => OutputRecord.decayStep_wf (OutputRecord.slew_wf ho s.ownRecord.volume))
    fun _ n hx => State.recoveryStep_outputsWf hx n

theorem State.endWindow_outputsWf {s : State} (h : s.outputsWf) : s.endWindow.outputsWf := by
  have hclosed : s.closeWindow.outputsWf := h
  exact State.outputsWf_of_om (State.changeMode_outputsWf hclosed s.closeWindow.derivedMode)
    (by simp only [State.endWindow, State.eachSource, State.settle_frame])

theorem State.joinRound_outputsWf {s : State} (h : s.outputsWf) : s.joinRound.outputsWf := by
  simp only [State.joinRound]
  split
  · split
    · exact State.endWindow_outputsWf h
    · exact h
  · exact h

theorem State.roundBegin_outputsWf {s : State} (h : s.outputsWf) (r : RoundBegin) : (s.roundBegin r).outputsWf := by
  apply State.roundBegin_keeps (P := State.outputsWf) (h := h)
  case rampRound => exact fun _ => State.rampRound_outputsWf
  case clockRound =>
    intro x hx
    exact State.handDiscipline_outputsWf (s := { x with
      rt := x.rt.hear x.own x.mayMark (readMark r.sender r.body) r.elapsed, lc := x.lc.beginRound }) hx _
  case peerRound =>
    intro x hx
    simp only [State.peerRound]
    split
    · exact State.deriveRoles_outputsWf (State.outputsWf_of_om hx rfl)
    · exact hx
  case receiverRound => exact fun d _ hx => State.receiverRound_outputsWf hx d
  case sourceRound => exact fun _ _ hx => State.outputsWf_of_om hx (by simp)
  case evalGo => exact fun _ => State.evalGo_outputsWf
  case clearRound => exact fun _ hx => hx
  case outputRound => exact fun _ => State.outputRound_outputsWf
  case joinRound => exact fun _ => State.joinRound_outputsWf
  all_goals exact fun _ hx => State.outputsWf_of_om hx (by simp)

/-! ## The commands -/

theorem State.onTake_outputsWf {s : State} (f : ArbField) {act : State → State → State} (h : s.outputsWf)
    (ha : ∀ b x : State, x.outputsWf → (act b x).outputsWf) : (s.onTake f act).outputsWf := by
  simp only [State.onTake]
  split
  · have htaken : (s.endMark.takeMessage f).outputsWf := State.outputsWf_of_om h (by simp)
    exact State.outputsWf_of_om (ha s.endMark _ htaken) (by simp)
  · exact h

theorem State.onRequest_outputsWf {s : State} (cls : BitVec 3) (k : Station) (p : List Byte) {act : State → State} (h : s.outputsWf)
    (ha : ∀ x : State, x.outputsWf → (act x).outputsWf) : (s.onRequest cls k p act).outputsWf :=
  State.onTake_outputsWf _ h fun _ x hx => by
    split
    · exact ha x hx
    · exact hx

theorem State.atRoundBegin_outputsWf {s : State} {act : State → State} (h : s.outputsWf)
    (ha : ∀ x : State, x.om = s.om → x.outputsWf → (act x).outputsWf) : (s.atRoundBegin act).outputsWf := by
  obtain ⟨before, after, heq⟩ := s.atRoundBegin_eq act
  rw [heq]
  exact ha { s with mm := before } rfl h

theorem State.closeEvent_outputsWf {s : State} (h : s.outputsWf) : s.closeEvent.outputsWf :=
  State.outputsWf_of_om h (by simp)

/-- The steps of the coming round begin that an event leaves out are no part of a record's form. -/
theorem State.holdSteps_outputsWf {s : State} (h : s.outputsWf) (n : OutputNo) : (s.holdSteps n).outputsWf :=
  State.setOutput_outputsWf h n (OutputRecord.wf_of_eq (h n) rfl)

theorem State.holdRamp_outputsWf {s : State} (h : s.outputsWf) (n : OutputNo) : (s.holdRamp n).outputsWf :=
  State.setOutput_outputsWf h n (OutputRecord.wf_of_eq (h n) rfl)

theorem State.holdStepsIf_outputsWf {s : State} (h : s.outputsWf) (n : OutputNo) (b : Bool) : (s.holdStepsIf n b).outputsWf := by
  cases b
  · exact h
  · exact State.holdSteps_outputsWf h n

theorem State.faultEvent_outputsWf {s : State} (h : s.outputsWf) (n : OutputNo) (hload : s.om.outputs[n].overload ≤ 3) (edge : FaultEdge) :
    (s.faultEvent n edge).outputsWf := by
  simp only [State.faultEvent]
  split
  · refine State.atRoundBegin_outputsWf h fun x hom hx => ?_
    exact State.outputsWf_of_om (State.holdSteps_outputsWf (State.countFault_outputsWf hx n (hom ▸ hload)) n) (by simp)
  · exact State.outputsWf_of_om (State.countFault_outputsWf h n hload) (by simp)

open State in
/-- Every command keeps the form of the output records. -/
theorem exec_keeps_outputs {i : Instr} {s t : State} (h : s.outputsWf) (he : exec i s = .next t) : t.outputsWf := by
  have hframe : ∀ x : State, x.om = s.om → x.closeEvent.outputsWf := fun x hom => closeEvent_outputsWf (outputsWf_of_om h hom)
  cases i <;> cases he
  case roundBegin r =>
    split
    · exact closeEvent_outputsWf (roundBegin_outputsWf h r)
    · exact h
  case takeoverTimerExpiry =>
    split
    · exact closeEvent_outputsWf (evalGo_outputsWf (outputsWf_of_om h rfl))
    · exact h
  case holdoverExpiry =>
    split
    · refine closeEvent_outputsWf (atRoundBegin_outputsWf h fun x _ hx => ?_)
      have hfree : ({ x with rt := x.rt.free } : State).outputsWf := hx
      exact outputsWf_of_om (handDiscipline_outputsWf hfree .holdover) (by simp)
    · exact h
  case zoneSet p =>
    refine onTake_outputsWf _ h fun _ x hx => ?_
    split
    · exact applyZoneSet_outputsWf hx _
    · exact rederiveMode_outputsWf hx
  case zoneState p =>
    refine onTake_outputsWf _ h fun _ x hx => ?_
    split
    · exact applyZoneState_outputsWf hx _
    · exact rederiveMode_outputsWf hx
  case claim | release => exact onTake_outputsWf _ h fun _ x hx => changeTable_outputsWf hx _ _
  case presence =>
    refine onTake_outputsWf _ h fun _ x hx => ?_
    have hflag : ∀ b, (x.clearJoinFlag b).outputsWf := fun b => outputsWf_of_om hx (by simp)
    exact outputsWf_of_om (refreshEntry_outputsWf (hflag _) _ _) rfl
  case reply | listPage | presetData | status | unknownKind => exact onTake_outputsWf _ h fun _ _ hx => hx
  case roleMap => exact onRequest_outputsWf _ _ _ h fun x hx => onRoleMap_outputsWf hx _ _
  case tune | seek | scan | presetRecall | presetStore | presetClear | presetRead | listRead | statusQuery =>
    exact onRequest_outputsWf _ _ _ h fun x hx => outputsWf_of_om hx (by simp)
  case messageVoided =>
    split
    · exact outputsWf_of_om h (by simp)
    · exact h
  case slotEnd =>
    split
    · exact closeEvent_outputsWf (slotEnds_outputsWf h _ _)
    · exact h
  case slotExpiry =>
    split
    · exact closeEvent_outputsWf (judge_outputsWf h _ _)
    · exact h
  case watchdogExpiry =>
    split
    · refine closeEvent_outputsWf (atRoundBegin_outputsWf h fun x _ hx => ?_)
      have hmissing : x.presentMissing.outputsWf := outputsWf_of_om hx (by simp)
      exact outputsWf_of_om (evalGo_outputsWf (fireWatchdog_outputsWf hmissing)) (by simp)
    · exact h
  case peerAbsence =>
    split
    · refine closeEvent_outputsWf (atRoundBegin_outputsWf h fun x _ hx => ?_)
      exact evalGo_outputsWf (deriveRoles_outputsWf (outputsWf_of_om hx rfl))
    · exact h
  case rampUpComplete n =>
    split
    · exact closeEvent_outputsWf (setOutput_outputsWf h n (OutputRecord.rampAhead_wf (h n) _))
    · exact h
  case rampDownComplete n =>
    split
    · refine closeEvent_outputsWf (atRoundBegin_outputsWf h fun x _ hx => ?_)
      exact outputsWf_of_om (evalGo_outputsWf (setOutput_outputsWf hx n (OutputRecord.rampAhead_wf (hx n) x.isActive))) (by simp)
    · exact h
  case outputFault n edge =>
    have hdriven : (s.driveFaultLine n (edge != .releases)).outputsWf := h
    dsimp only
    split
    next hc =>
      refine closeEvent_outputsWf (faultEvent_outputsWf hdriven n (OutputRecord.overload_of_faultable (h n) (edge := edge) ?_) edge)
      simp only [Bool.and_eq_true] at hc
      exact hc.2
    next => exact hdriven
  case faultRecoveryEnd n =>
    split
    next hc =>
      simp only [Bool.and_eq_true, beq_iff_eq] at hc
      obtain ⟨⟨-, hfaulted⟩, -⟩ := hc
      exact closeEvent_outputsWf (holdStepsIf_outputsWf (holdRamp_outputsWf (recoverAt_outputsWf h n hfaulted (by decide)) n) n _)
    next => exact h
  case overloadDecay n =>
    split
    · exact closeEvent_outputsWf (setOutput_outputsWf h n (OutputRecord.wf_of_eq (OutputRecord.decayMove_wf (h n)) rfl))
    · exact h
  case supplyMoveToLow =>
    split
    · exact closeEvent_outputsWf (evalGo_outputsWf (outputsWf_of_om h (by simp)))
    · exact h
  case supplyMoveToNormal =>
    split
    · have hnormal : (({ s with sm := .normal } : State).setCondition .supplyLow false).outputsWf := h
      exact closeEvent_outputsWf (outputsWf_of_om (evalGo_outputsWf hnormal) (by simp))
    · exact h
  case muteLineAssert | muteLineRelease =>
    simp only [driveMute]
    split
    · exact h
    · exact closeEvent_outputsWf (evalGo_outputsWf (outputsWf_of_om h (by simp)))
  case carrierBoundary =>
    split
    · exact h
    · exact mapOutputs_outputsWf h fun n _ ho => boundaryOutput_wf s _ n ho
  case joinWindowEnd =>
    split
    · exact closeEvent_outputsWf (atRoundBegin_outputsWf h fun x _ hx => endWindow_outputsWf hx)
    · exact h
  case settleEnd | unheldTimeout | clockGained | acquiringEnd | syncLost | gateClose | recoveryEnd | imageRead | joinStart
      | readComplete | programmingCommit | supersedingEnd | erasingEnd | copyingEnd | headerEnd =>
    split
    · exact hframe _ (by simp)
    · exact h
  case clockLost | syncPattern | blockCompletion => exact hframe _ (by simp)
  case reset =>
    intro n
    have hrecord : (resetWith (s.ps.sectorsAfterReset s.freeDraws) (s.rc.set ‹_› true) s.pins (s.freeDraws + 1) s.pending).om.outputs[n]
        = OutputRecord.reset := by
      simp [resetWith, OutputModulators.reset]
    rw [hrecord]
    simp [OutputRecord.wf, OutputRecord.reset, OutState.sounding]
  case leaveReset => dsimp only; split <;> exact h
  case senderMarkDue =>
    split
    · split <;> exact h
    · exact h
  case readSuspendDelayEnd => split <;> exact h

end Sys2Proof.Machine

namespace Sys2Proof.Proofs

open Sys2Proof.Machine

/-- Settles O41, by the command at the front of the queue: each changes the records by the changes of one record that keep its form. -/
theorem everyStepKeepsTheOutputs : Obligations.EveryStepKeepsTheOutputs := fun _ _ =>
  step_keeps (P := State.outputsWf) (fun _ h => h) (fun _ _ h => h) fun _ _ _ => exec_keeps_outputs

end Sys2Proof.Proofs
end

section
/-! Proofs about the condition set (section 11.4): each owner's operation puts its condition with the state that it leaves, and no other operation moves
either. -/

namespace Sys2Proof.Machine

/-! ## What the owners hold -/

/-- Every entry of the condition set is held exactly while its owner's state calls for it. -/
def State.Honest (s : State) : Prop := ∀ k, s.cr.holds k = s.conditionDue k

/-- The parts of the state that the conditions speak of, and the set itself, are the same. -/
def State.SameOwners (s t : State) : Prop :=
  t.cl = s.cl ∧ t.rt = s.rt ∧ t.sm = s.sm ∧ t.rc = s.rc ∧ t.pins = s.pins ∧ t.om = s.om ∧ t.sp = s.sp ∧ t.sr = s.sr ∧ t.pd = s.pd
    ∧ t.ir = s.ir ∧ t.cr.held = s.cr.held

theorem Conditions.holds_congr {c d : Conditions} (h : d.held = c.held) (k : Condition) : d.holds k = c.holds k := by
  simp only [Conditions.holds, h]

theorem State.Honest.frame {s t : State} (h : s.Honest) (ht : s.SameOwners t) : t.Honest := fun k => by
  obtain ⟨hcl, hrt, hsm, hrc, hpins, hom, hsp, hsr, hpd, hir, hcr⟩ := ht
  rw [Conditions.holds_congr hcr, h k]
  cases k <;> simp only [State.conditionDue, State.inReset, hcl, hrt, hsm, hrc, hpins, hom, hsp, hsr, hpd, hir]

/-- Nothing that the conditions speak of moves. -/
theorem State.Honest.of_due {s t : State} (h : s.Honest) (hcr : t.cr.held = s.cr.held) (hdue : ∀ k, t.conditionDue k = s.conditionDue k) :
    t.Honest := fun k => by
  rw [Conditions.holds_congr hcr, h k, hdue k]

/-- An owner that moves puts its condition as its new state calls for it. -/
theorem State.Honest.put {s t : State} (h : s.Honest) (k : Condition) {on : Bool} (hcr : t.cr.held = (s.cr.put k on).held)
    (hon : t.conditionDue k = on) (hdue : ∀ j, j ≠ k → t.conditionDue j = s.conditionDue j) : t.Honest := fun j => by
  rw [Conditions.holds_congr hcr]
  by_cases hj : j = k
  · rw [hj, Conditions.put_holds, hon]
  · rw [Conditions.put_holds_ne _ _ _ _ hj, h j, hdue j hj]

/-! ## The decoder and the receiver -/

theorem State.checkDecoder_honest {s : State} (h : s.Honest) : s.checkDecoder.Honest := by
  have hmm : ∀ (x : State) (b : Bool), x.Honest → (x.rebuildIf b).Honest := fun x b hx => hx.frame (by simp [State.SameOwners])
  simp only [State.checkDecoder]
  refine hmm _ _ ?_
  split
  next hstops =>
    refine h.put .decodeConceal rfl rfl fun j hj => ?_
    cases j <;> simp_all [State.conditionDue, State.inReset]
  next =>
    refine h.of_due rfl fun j => ?_
    split <;> cases j <;> simp_all [State.conditionDue, State.inReset]

theorem State.decode_honest {s : State} (h : s.Honest) (handed : Handed) : (s.decode handed).Honest := by
  have hput : ({ s with
      pd := (s.pd.onHanded handed).decoder
      mm := { s.mm with frame := (s.pd.onHanded handed).frame }
      cr := s.cr.put .decodeConceal ((s.pd.onHanded handed).decoder.state == .conceal) } : State).Honest := by
    refine h.put .decodeConceal rfl rfl fun j hj => ?_
    cases j <;> simp_all [State.conditionDue, State.inReset]
  exact hput.frame (by simp [State.SameOwners, State.decode])

/-- A receiver that moves between states other than LOST. -/
theorem State.Honest.receiver {s : State} (h : s.Honest) {sr : Receiver} (hs : sr.state = .lost ↔ s.sr.state = .lost) :
    ({ s with sr := sr } : State).Honest := by
  refine h.of_due rfl fun j => ?_
  cases j
  case programLost => exact Bool.eq_iff_iff.mpr (by simpa [State.conditionDue] using hs)
  all_goals rfl

/-- A receiver that moves with PROGRAM_LOST. -/
theorem State.Honest.receiverPut {s : State} (h : s.Honest) (sr : Receiver) :
    (({ s with sr := sr } : State).setCondition .programLost (sr.state == .lost)).Honest := by
  refine h.put .programLost rfl rfl fun j hj => ?_
  cases j <;> first | exact absurd rfl hj | rfl

theorem State.switchTo_honest {s : State} (h : s.Honest) (program : Option Stream) : (s.switchTo program).Honest := by
  have hnotLost : ((Receiver.switched program).state == ReceiverState.lost) = false := by
    cases program <;> rfl
  have hput := h.receiverPut (Receiver.switched program)
  rw [hnotLost] at hput
  exact (State.checkDecoder_honest hput).frame (by simp [State.SameOwners, State.switchTo])

theorem State.switchIfDown_honest {s : State} (h : s.Honest) : s.switchIfDown.Honest := by
  simp only [State.switchIfDown]
  split
  · split
    · exact h
    · exact State.switchTo_honest h _
  · exact h

theorem State.followProgram_honest {s : State} (h : s.Honest) : s.followProgram.Honest := by
  simp only [State.followProgram]
  split
  · exact h.receiver .rfl
  · split
    · exact h.receiver .rfl
    · exact State.switchTo_honest h _

theorem State.dropForD_honest {s : State} (h : s.Honest) : s.dropForD.Honest := by
  simp only [State.dropForD]
  split
  · exact h
  · exact h.receiverPut { s.sr with ring := emptyRing, watchdog := 0, state := .filling, lead := none }

theorem State.writeRing_honest {s : State} (h : s.Honest) : s.writeRing.Honest := by
  simp only [State.writeRing]
  split
  next m _ _ =>
    generalize (s.sr.state == .lost && (entryOf (m - 1) s.sr.gathered).received) = found
    cases found
    · exact h.receiver .rfl
    · exact h.receiverPut { s.sr with
        ring := s.sr.ring.set (ringIndex (m - 1)) (entryOf (m - 1) s.sr.gathered), gathered := [], state := .filling, lead := some (m - 1) }
  next => exact h.receiver .rfl

theorem State.takeKind_honest {s : State} (h : s.Honest) (kind : Option Kind) : (s.takeKind kind).Honest := by
  simp only [State.takeKind]
  split
  · exact h
  · have hkind : ({ s with sr := { s.sr with programKind := kind } } : State).Honest := h.receiver .rfl
    exact (State.checkDecoder_honest hkind).frame (by simp [State.SameOwners])

theorem State.silentFrame_honest {s : State} (h : s.Honest) : s.silentFrame.Honest := h.frame (by simp [State.SameOwners])

theorem State.playPairs_honest {s : State} (h : s.Honest) (pairs : List (Sample × Sample)) : (s.playPairs pairs).Honest :=
  (h.receiver (sr := { s.sr with lastPairs := pairs }) .rfl).frame (by simp [State.SameOwners])

theorem State.presentReceived_honest {s : State} (h : s.Honest) (e : RingEntry) : (s.presentReceived e).Honest := by
  have hzero : ({ s with sr := { s.sr with watchdog := 0 } } : State).Honest := h.receiver .rfl
  have hkind := State.takeKind_honest hzero e.kind
  simp only [State.presentReceived]
  split
  · exact State.decode_honest hkind _
  · exact State.decode_honest hkind _
  · exact State.playPairs_honest hkind _
  · exact State.playPairs_honest hkind _
  · exact State.silentFrame_honest hkind

theorem State.presentMissing_honest {s : State} (h : s.Honest) : s.presentMissing.Honest := by
  simp only [State.presentMissing]
  split
  · exact State.playPairs_honest h _
  · exact State.decode_honest h _
  · exact State.silentFrame_honest h

/-! ## The publisher -/

theorem Publisher.get_set_ne (p : Publisher) {src other : Source} (h : other ≠ src) (r : PubRecord) : (p.set src r).get other = p.get other := by
  cases src <;> cases other <;> first | exact absurd rfl h | rfl

/-- A publication record that moves between states other than NO_SLOT. -/
theorem State.Honest.setPub {s : State} (h : s.Honest) (src : Source) {r : PubRecord}
    (hr : r.state = .noSlot ↔ (s.sp.get src).state = .noSlot) : (s.setPub src r).Honest := by
  refine h.of_due rfl fun j => ?_
  cases j
  case streamNoSlot other =>
    by_cases hother : other = src
    · subst hother
      exact Bool.eq_iff_iff.mpr (by simpa [State.conditionDue, State.setPub, Publisher.get_set] using hr)
    · simp [State.conditionDue, State.setPub, Publisher.get_set_ne _ hother]
  all_goals rfl

/-- A publication record that moves with STREAM_NO_SLOT. -/
theorem State.Honest.setPubPut {s t : State} (h : s.Honest) (src : Source) (r : PubRecord)
    (ht : (({ s with sp := s.sp.set src r, cr := s.cr.put (.streamNoSlot src) (r.state == .noSlot) } : State)).SameOwners t) : t.Honest := by
  refine State.Honest.frame (h.put (.streamNoSlot src) rfl ?_ fun j hj => ?_) ht
  · simp [State.conditionDue, Publisher.get_set]
  · cases j
    case streamNoSlot other =>
      have hother : other ≠ src := fun he => hj (he ▸ rfl)
      simp [State.conditionDue, Publisher.get_set_ne _ hother]
    all_goals rfl

theorem State.settle_honest {s : State} (h : s.Honest) (src : Source) (reclaims : Bool) : (s.settle src reclaims).Honest := by
  simp only [State.settle]
  split
  · exact h.setPubPut src { s.sp.get src with
      state := (s.settlement src reclaims).state, outstanding := outstandingOf (s.settlement src reclaims).offer,
      heldBack := (s.settlement src reclaims).offer.any s.lc.handsBack } (by simp [State.SameOwners])
  · exact h

@[simp] theorem PubRecord.dropClaim_state (r : PubRecord) : r.dropClaim.state = r.state := by
  simp only [PubRecord.dropClaim]
  split <;> rfl

theorem State.followDemand_honest {s : State} (h : s.Honest) (src : Source) : (s.followDemand src).Honest := by
  simp only [State.followDemand]
  split
  · exact h
  next hmoves =>
    split
    · exact State.settle_honest h src _
    · split
      next hwants =>
        have hstate : (s.sp.get src).state = .undemanded := by simp_all
        exact h.setPub src (by simp [hstate])
      next =>
        refine State.settle_honest ?_ src _
        exact h.setPubPut src { (s.sp.get src).dropClaim with state := .undemanded } (by
          simp [State.SameOwners, State.setPub, State.setCondition, show (PubState.undemanded == PubState.noSlot) = false from rfl])

theorem State.followKind_honest {s : State} (h : s.Honest) (src : Source) (kind : Kind) : (s.followKind src kind).Honest := by
  have hdrop : (s.setPub src { (s.sp.get src).dropClaim with wanted := kind }).Honest := h.setPub src (by simp)
  simp only [State.followKind]
  split
  · exact h
  · split
    · exact hdrop
    · exact State.settle_honest hdrop src _

/-- What an operation keeps at each record it keeps at the three in turn. -/
theorem State.eachSource_keeps {P : State → Prop} {s : State} {f : State → Source → State} (h : P s) (hf : ∀ x src, P x → P (f x src)) :
    P (s.eachSource f) :=
  hf _ _ (hf _ _ (hf _ _ h))

theorem State.handFreed_honest {s : State} (h : s.Honest) (freed : List Stream) : (s.handFreed freed).Honest :=
  State.eachSource_keeps h fun x src hx => by
    simp only [State.afterFreeing]
    split
    · exact State.settle_honest hx src _
    · exact hx

theorem State.ownTakenAt_honest {s : State} (h : s.Honest) (src : Option Source) : (s.ownTakenAt src).Honest := by
  cases src with
  | none => exact h
  | some src => exact State.settle_honest (h.setPub src (by simp)) src _

theorem State.offerAgain_honest {s : State} (h : s.Honest) (src : Source) : (s.offerAgain src).Honest := by
  simp only [State.offerAgain]
  split
  · split
    next m _ =>
      exact (h.setPub src (r := { s.sp.get src with heldBack := s.lc.handsBack m }) .rfl).frame (by simp [State.SameOwners, State.setPub])
    next => exact h
  · exact h

/-! ## The inputs and the tuner -/

theorem Inputs.get_set (i : Inputs) (id : InputId) (r : InputRecord) : (i.set id r).get id = r := by cases id <;> rfl

theorem Inputs.get_set_ne (i : Inputs) {id other : InputId} (h : other ≠ id) (r : InputRecord) : (i.set id r).get other = i.get other := by
  cases id <;> cases other <;> first | exact absurd rfl h | rfl

theorem State.putInput_honest {s : State} (h : s.Honest) (id : InputId) (r : InputRecord) : (s.putInput id r).Honest := by
  refine State.followKind_honest ?_ _ _
  refine State.Honest.frame (s := { s with
    ir := s.ir.set id { r with changed := (s.ir.get id).changed || r.state != (s.ir.get id).state, history := r.historyAfter (s.ir.get id) }
    cr := s.cr.put (.inputUnsupported id) (r.state == .unsupported) }) (h.put (.inputUnsupported id) rfl ?_ fun j hj => ?_)
    (by simp [State.SameOwners])
  · simp [State.conditionDue, Inputs.get_set]
  · cases j
    case inputUnsupported other =>
      have hother : other ≠ id := fun he => hj (he ▸ rfl)
      simp [State.conditionDue, Inputs.get_set_ne _ hother]
    all_goals rfl

theorem State.atInput_honest {s : State} (h : s.Honest) (id : InputId) (f : InputRecord → InputRecord) : (s.atInput id f).Honest := by
  simp only [State.atInput]
  split
  · exact State.putInput_honest h _ _
  · exact h

theorem State.powerInput_honest {s : State} (h : s.Honest) (id : InputId) : (s.powerInput id).Honest := by
  simp only [State.powerInput]
  split
  · exact State.putInput_honest h _ _
  · exact h

theorem State.inputRound_honest {s : State} (h : s.Honest) (id : InputId) (heard : InputRound) (l : LocalRound) :
    (s.inputRound id heard l).Honest := by
  simp only [State.inputRound]
  refine State.Honest.setPub (s := if s.inputsPowered then s.putInput id ((s.ir.get id).roundBegin heard l) else s) ?_ _ (by simp)
  split
  · exact State.putInput_honest h _ _
  · exact h

theorem State.inputClose_honest {s : State} (h : s.Honest) (id : InputId) : (s.inputClose id).Honest := by
  have hpub := h.setPub (sourceOf id) (r := { s.sp.get (sourceOf id) with
    capture := { (s.sp.get (sourceOf id)).capture with
      usable := (s.sp.get (sourceOf id)).capture.usable && !(s.ir.get id).changed } }) .rfl
  refine hpub.of_due rfl fun j => ?_
  cases j
  case inputUnsupported other =>
    by_cases hother : other = id
    · subst hother
      simp [State.conditionDue, State.inputClose, State.setPub, Inputs.get_set, InputRecord.newRound]
    · simp [State.conditionDue, State.inputClose, State.setPub, Inputs.get_set_ne _ hother]
  all_goals rfl

/-- A capture of the tuner touches no state of its record. -/
theorem State.Honest.captureT {s : State} (h : s.Honest) (c : Capture) :
    ({ s with sp := { s.sp with recT := { s.sp.recT with capture := c } } } : State).Honest :=
  h.setPub .t (r := { s.sp.recT with capture := c }) .rfl

theorem State.tunerRound_honest {s : State} (h : s.Honest) (fe : FrontEnd) (d : Demodulated) : (s.tunerRound fe d).Honest := by
  simp only [State.tunerRound]
  split
  · refine State.Honest.captureT (s := State.phaseStep _) (h.frame ?_) _
    simp [State.SameOwners]
  · exact h

theorem State.tunerClose_honest {s : State} (h : s.Honest) : s.tunerClose.Honest := by
  simp only [State.tunerClose]
  split
  · exact (h.captureT { s.sp.recT.capture with usable := s.sp.recT.capture.usable && !s.tb.changed }).frame (by simp [State.SameOwners])
  · exact h

end Sys2Proof.Machine
end

section
/-! Proofs about the condition set (section 11.4), continued: the conditions of the outputs. -/

namespace Sys2Proof.Machine

/-! ## What an output's record calls for -/

/-- OUTPUT_RETIRED is held in RETIRED, and in OFF with four overloads (section 11.4). -/
def OutputRecord.isRetired (o : OutputRecord) : Bool := o.state == .retired || (o.state == .off && o.overload == 4)

/-- Two records that call for the same conditions. -/
def OutputRecord.SameDue (o p : OutputRecord) : Prop :=
  (p.state = .faulted ↔ o.state = .faulted) ∧ (p.isRetired = true ↔ o.isRetired = true) ∧ p.roleStatus = o.roleStatus

theorem OutputRecord.isRetired_iff (o : OutputRecord) : o.isRetired = true ↔ o.state = .retired ∨ o.state = .off ∧ o.overload = 4 := by
  simp [OutputRecord.isRetired]

theorem OutputRecord.SameDue.refl (o : OutputRecord) : o.SameDue o := ⟨.rfl, .rfl, rfl⟩

theorem OutputRecord.SameDue.trans {o p q : OutputRecord} (h : o.SameDue p) (k : p.SameDue q) : o.SameDue q :=
  ⟨k.1.trans h.1, k.2.1.trans h.2.1, k.2.2.trans h.2.2⟩

theorem OutputRecord.isRetired_of_le {o : OutputRecord} (hs : o.state ≠ .retired) (hload : o.overload ≤ 3) : o.isRetired = false := by
  have : o.overload ≠ 4 := by omega
  simp_all [← Bool.not_eq_true, OutputRecord.isRetired_iff]

theorem OutputRecord.evaluate_sameDue (o : OutputRecord) (start continues : Bool) : o.SameDue (o.evaluate start continues) := by
  simp only [OutputRecord.evaluate]
  (repeat' split) <;> simp_all [OutputRecord.SameDue, OutputRecord.isRetired_iff]

/-- A sounding or silent output that comes to rest, with fewer than four overloads, calls for nothing before or after. -/
theorem OutputRecord.toRest_sameDue {o : OutputRecord} (h : o.wf) (hs : o.state = .silent ∨ o.state.sounding = true) (active : Bool) :
    o.SameDue (o.toRest active) := by
  have hstate : o.state ≠ .off ∧ o.state ≠ .retired ∧ o.state ≠ .faulted := by
    rcases hs with hs | hs <;> cases ho : o.state <;> simp_all [OutState.sounding]
  obtain ⟨hoff, hretired, hfaulted⟩ := hstate
  have hload := OutputRecord.overload_le h hoff hretired
  have hne : o.overload ≠ 4 := by omega
  cases active <;> simp [OutputRecord.SameDue, OutputRecord.isRetired_iff, OutputRecord.toRest, OutputRecord.toOff, OutputRecord.toSilent, *]

theorem OutputRecord.cut_sameDue {o : OutputRecord} (h : o.wf) (active : Bool) : o.SameDue (o.cut active) := by
  simp only [OutputRecord.cut]
  split
  next hs => exact OutputRecord.toRest_sameDue h (.inr hs) active
  next => exact .refl o

theorem OutputRecord.rampMove_sameDue {o : OutputRecord} (h : o.wf) (active : Bool) : o.SameDue (o.rampMove active) := by
  simp only [OutputRecord.rampMove]
  split
  case h_1 hs => split <;> simp [OutputRecord.SameDue, OutputRecord.isRetired_iff, hs]
  case h_2 hs =>
    split
    · exact OutputRecord.toRest_sameDue h (.inr (by rw [hs]; rfl)) active
    · simp [OutputRecord.SameDue, OutputRecord.isRetired_iff]
  all_goals exact .refl o

theorem OutputRecord.rampStep_sameDue {o : OutputRecord} (h : o.wf) (active : Bool) : o.SameDue (o.rampStep active) := by
  simp only [OutputRecord.rampStep]
  split
  · exact ⟨.rfl, .rfl, rfl⟩
  · exact OutputRecord.rampMove_sameDue h active

theorem OutputRecord.rampAhead_sameDue {o : OutputRecord} (h : o.wf) (active : Bool) : o.SameDue (o.rampAhead active) :=
  (OutputRecord.rampMove_sameDue h active).trans ⟨.rfl, .rfl, rfl⟩

/-- The decay leaves an overload count of 4 as it stands, and brings none to 4. -/
theorem OutputRecord.decayMove_sameDue (o : OutputRecord) : o.SameDue o.decayMove := by
  simp only [OutputRecord.decayMove]
  split
  next hload =>
    have hne : o.overload ≠ 4 := by omega
    have hne' : o.overload - 1 ≠ 4 := by omega
    split <;> simp [OutputRecord.SameDue, OutputRecord.isRetired_iff, hne, hne']
  next => exact .refl o

theorem OutputRecord.decayStep_sameDue (o : OutputRecord) : o.SameDue o.decayStep := by
  simp only [OutputRecord.decayStep]
  split
  · exact ⟨.rfl, .rfl, rfl⟩
  · exact o.decayMove_sameDue

/-! ## The outputs of a state -/

/-- Outputs that move between records that call for the same conditions. -/
theorem State.Honest.outputs {s t : State} (h : s.Honest) (ht : ({ s with om := t.om } : State).SameOwners t)
    (hdue : ∀ n : OutputNo, (s.om.outputs[n]).SameDue t.om.outputs[n]) : t.Honest := by
  refine State.Honest.frame (s := { s with om := t.om }) (h.of_due rfl fun j => ?_) ht
  cases j
  case outputFaulted n => exact Bool.eq_iff_iff.mpr (by simpa only [State.conditionDue, beq_iff_eq] using (hdue n).1)
  case outputRetired n => exact Bool.eq_iff_iff.mpr (hdue n).2.1
  case roleDuplicate n => exact congrArg (· == RoleStatus.duplicate) (hdue n).2.2
  all_goals rfl

theorem State.Honest.mapOutputs {s : State} (h : s.Honest) {f : OutputNo → OutputRecord → OutputRecord}
    (hf : ∀ n : OutputNo, (s.om.outputs[n]).SameDue (f n s.om.outputs[n])) : (s.mapOutputs f).Honest :=
  h.outputs (by simp [State.SameOwners]) fun n => by
    rw [State.mapOutputs_outputs]
    exact hf n

theorem State.Honest.setOutput {s : State} (h : s.Honest) (n : OutputNo) {o : OutputRecord} (ho : (s.om.outputs[n]).SameDue o) :
    (s.setOutput n o).Honest :=
  h.outputs (by simp [State.SameOwners]) fun j => by
    rw [State.setOutput_outputs]
    split
    next hj => exact hj ▸ ho
    next => exact .refl _

/-- An output that moves with both of its conditions. -/
theorem State.Honest.setOutputPut {s t : State} (h : s.Honest) (n : OutputNo) {o : OutputRecord} (hrole : o.roleStatus = (s.om.outputs[n]).roleStatus)
    (ht : (((s.setOutput n o).setCondition (.outputFaulted n) (o.state == .faulted)).setCondition (.outputRetired n) o.isRetired).SameOwners t) :
    t.Honest := by
  refine State.Honest.frame (fun k => ?_) ht
  have hrecord : ∀ j : OutputNo, (s.setOutput n o).om.outputs[j] = if n = j then o else s.om.outputs[j] :=
    fun j => s.setOutput_outputs n j o
  by_cases hretired : k = .outputRetired n
  · subst hretired
    refine (Conditions.put_holds _ _ _).trans ?_
    simp only [State.conditionDue, State.setCondition_frame, hrecord, if_true]
    rfl
  refine (Conditions.put_holds_ne _ _ _ _ hretired).trans ?_
  by_cases hfaulted : k = .outputFaulted n
  · subst hfaulted
    refine (Conditions.put_holds _ _ _).trans ?_
    simp only [State.conditionDue, State.setCondition_frame, hrecord, if_true]
  refine (Conditions.put_holds_ne _ _ _ _ hfaulted).trans ((h k).trans ?_)
  cases k
  case outputFaulted j =>
    have hj : n ≠ j := fun he => hfaulted (he ▸ rfl)
    simp only [State.conditionDue, State.setCondition_frame, hrecord, if_neg hj]
  case outputRetired j =>
    have hj : n ≠ j := fun he => hretired (he ▸ rfl)
    simp only [State.conditionDue, State.setCondition_frame, hrecord, if_neg hj]
  case roleDuplicate j =>
    simp only [State.conditionDue, State.setCondition_frame, hrecord]
    split
    next hj => rw [hrole, hj]
    next => rfl
  all_goals rfl

theorem Conditions.put_same {c : Conditions} {k : Condition} {on : Bool} (h : c.holds k = on) : c.put k on = c := by
  simp [Conditions.put, h]

theorem State.setCondition_same {s : State} {k : Condition} {on : Bool} (h : s.cr.holds k = on) : s.setCondition k on = s := by
  rw [State.setCondition, Conditions.put_same h]

theorem State.evalGo_honest {s : State} (h : s.Honest) : s.evalGo.Honest :=
  h.mapOutputs fun _ => OutputRecord.evaluate_sameDue _ _ _

theorem State.cut_honest {s : State} (hw : s.outputsWf) (h : s.Honest) : s.cut.Honest :=
  State.evalGo_honest (h.mapOutputs fun n => OutputRecord.cut_sameDue (hw n) _)

theorem State.rampRound_honest {s : State} (hw : s.outputsWf) (h : s.Honest) : s.rampRound.Honest :=
  State.switchIfDown_honest (State.evalGo_honest (h.mapOutputs fun n => OutputRecord.rampStep_sameDue (hw n) _))

/-! ## Faults and recovery -/

theorem OutputRecord.fault_role (o : OutputRecord) : o.fault.roleStatus = o.roleStatus := by
  simp only [OutputRecord.fault]
  split <;> rfl

theorem OutputRecord.fault_faulted (o : OutputRecord) : (o.fault.state == .faulted) = !decide (4 ≤ o.overload + 1) := by
  simp only [OutputRecord.fault]
  split
  · simp_all [OutputRecord.toFaulted]
    omega
  · simp_all [OutputRecord.toRetired]

theorem OutputRecord.fault_retired (o : OutputRecord) : o.fault.isRetired = decide (4 ≤ o.overload + 1) := by
  rw [Bool.eq_iff_iff, OutputRecord.isRetired_iff, decide_eq_true_iff]
  simp only [OutputRecord.fault]
  split <;> simp [OutputRecord.toFaulted, OutputRecord.toRetired] <;> omega

/-- A fault puts both conditions of its output, whatever they were before. -/
theorem State.countFault_honest {s : State} (h : s.Honest) (n : OutputNo) : (s.countFault n).Honest :=
  h.setOutputPut n (o := (s.om.outputs[n]).fault) (OutputRecord.fault_role _) (by
    rw [OutputRecord.fault_faulted, OutputRecord.fault_retired]
    simp [State.SameOwners, State.countFault])

theorem State.countFaultIf_honest {s : State} (h : s.Honest) (n : OutputNo) (b : Bool) : (s.countFaultIf n b).Honest := by
  cases b
  · exact h
  · exact State.countFault_honest h n

/-- The record at the end of a recovery without a fault calls for neither condition. -/
theorem OutputRecord.toRest_due {o : OutputRecord} (hload : o.overload ≤ 3) (active : Bool) :
    ((o.toRest active).state == .faulted) = false ∧ (o.toRest active).isRetired = false := by
  have hne : o.overload ≠ 4 := by omega
  cases active <;> simp [← Bool.not_eq_true, OutputRecord.isRetired_iff, OutputRecord.toRest, OutputRecord.toOff, OutputRecord.toSilent, hne]

@[simp] theorem OutputRecord.toRest_role (o : OutputRecord) (active : Bool) : (o.toRest active).roleStatus = o.roleStatus := by
  cases active <;> rfl

theorem State.holds_outputRetired {s : State} (h : s.Honest) (n : OutputNo) : s.cr.holds (.outputRetired n) = (s.om.outputs[n]).isRetired :=
  h _

theorem State.holds_outputFaulted {s : State} (h : s.Honest) (n : OutputNo) :
    s.cr.holds (.outputFaulted n) = (s.om.outputs[n].state == .faulted) :=
  h _

/-- An output that moves with OUTPUT_FAULTED alone, and calls for OUTPUT_RETIRED as before. -/
theorem State.Honest.setOutputFaulted {s t : State} (h : s.Honest) (n : OutputNo) {o : OutputRecord} {on : Bool}
    (hrole : o.roleStatus = (s.om.outputs[n]).roleStatus) (hon : (o.state == .faulted) = on) (hretired : o.isRetired = (s.om.outputs[n]).isRetired)
    (ht : ((s.setOutput n o).setCondition (.outputFaulted n) on).SameOwners t) : t.Honest := by
  refine h.setOutputPut n hrole ?_
  rw [hon, State.setCondition_same]
  · exact ht
  · refine (Conditions.put_holds_ne _ _ _ _ (by simp)).trans ?_
    rw [hretired]
    exact State.holds_outputRetired h n

/-- An output that moves with OUTPUT_RETIRED alone, and calls for OUTPUT_FAULTED as before. -/
theorem State.Honest.setOutputRetired {s t : State} (h : s.Honest) (n : OutputNo) {o : OutputRecord} {on : Bool}
    (hrole : o.roleStatus = (s.om.outputs[n]).roleStatus) (hon : o.isRetired = on)
    (hfaulted : (o.state == .faulted) = (s.om.outputs[n].state == .faulted))
    (ht : ((s.setOutput n o).setCondition (.outputRetired n) on).SameOwners t) : t.Honest := by
  refine h.setOutputPut n hrole ?_
  rw [hon, hfaulted, State.setCondition_same (s := s.setOutput n o) (State.holds_outputFaulted h n)]
  exact ht

theorem State.endRecovery_honest {s : State} (hw : s.outputsWf) (h : s.Honest) (n : OutputNo) (hs : s.om.outputs[n].state = .faulted) :
    (s.endRecovery n).Honest := by
  have hload := OutputRecord.overload_le (hw n) (by rw [hs]; decide) (by rw [hs]; decide)
  obtain ⟨hrestFaulted, hrestRetired⟩ := OutputRecord.toRest_due hload s.isActive
  have hrest : (((s.setOutput n (s.om.outputs[n].toRest s.isActive)).setCondition (.outputFaulted n) false).announce).Honest :=
    h.setOutputFaulted n (OutputRecord.toRest_role _ _) hrestFaulted
      (hrestRetired.trans (OutputRecord.isRetired_of_le (by rw [hs]; decide) hload).symm) (by simp [State.SameOwners])
  simp only [State.endRecovery]
  refine State.evalGo_honest ?_
  split
  · refine hrest.setOutputPut n (o := ({ s.om.outputs[n] with recovery := 0 } : OutputRecord).fault) ?_ ?_
    · simp only [State.announce_frame, State.setCondition_frame, State.setOutput_outputs, if_true, OutputRecord.toRest_role]
      exact OutputRecord.fault_role _
    · rw [OutputRecord.fault_faulted, OutputRecord.fault_retired]
      simp [State.SameOwners, State.countFault, State.setOutput]
  · exact hrest

theorem State.recoverAt_honest {s : State} (hw : s.outputsWf) (h : s.Honest) (n : OutputNo) (hs : s.om.outputs[n].state = .faulted)
    (begins : Nat) : (s.recoverAt n begins).Honest :=
  (State.endRecovery_honest hw h n hs).setOutput n ⟨.rfl, .rfl, rfl⟩

theorem State.recoveryStep_honest {s : State} (hw : s.outputsWf) (h : s.Honest) (n : OutputNo) : (s.recoveryStep n).Honest := by
  simp only [State.recoveryStep]
  split
  · exact h.setOutput n ⟨.rfl, .rfl, rfl⟩
  · split
    next hc => exact State.recoverAt_honest hw h n (by simp_all) 1
    next => exact h.setOutput n ⟨.rfl, .rfl, rfl⟩

/-! ## Modes and roles -/

theorem State.activateOutput_honest {s : State} (h : s.Honest) (n : OutputNo) : (s.activateOutput n).Honest := by
  simp only [State.activateOutput]
  split
  next hoff =>
    have hs : s.om.outputs[n].state = .off := by simpa using hoff
    split
    next =>
      exact h.setOutputRetired n (o := (s.om.outputs[n]).toRetired) (on := true) rfl rfl (by rw [hs]; rfl)
        (by simp [State.SameOwners])
    next hfour =>
      have hne : s.om.outputs[n].overload ≠ 4 := by simpa using hfour
      refine State.countFaultIf_honest (h.setOutput n (o := (s.om.outputs[n]).toSilent) ⟨?_, ?_, rfl⟩) n _
      · rw [hs]
        simp [OutputRecord.toSilent]
      · rw [OutputRecord.isRetired_iff, OutputRecord.isRetired_iff, hs]
        simpa [OutputRecord.toSilent] using hne
  next => exact h

theorem State.quietOutput_honest {s : State} (hw : s.outputsWf) (h : s.Honest) (n : OutputNo) : (s.quietOutput n).Honest := by
  simp only [State.quietOutput]
  split
  next hs => exact h.setOutput n (OutputRecord.toRest_sameDue (hw n) (.inl (by simpa using hs)) false)
  next => exact h

/-- An output OFF calls for OUTPUT_RETIRED as it did before, in each state that its form allows. -/
theorem OutputRecord.toOff_isRetired {o : OutputRecord} (h : o.wf) : o.toOff.isRetired = o.isRetired := by
  obtain ⟨-, -, -, -, hfour, hretired, -⟩ := h
  rw [Bool.eq_iff_iff, OutputRecord.isRetired_iff, OutputRecord.isRetired_iff]
  simp only [OutputRecord.toOff]
  constructor
  · rintro (hs | ⟨-, hload⟩)
    · cases hs
    · exact (hfour hload).imp id fun hs => ⟨hs, hload⟩
  · rintro (hs | ⟨-, hload⟩)
    · exact .inr ⟨trivial, hretired hs⟩
    · exact .inr ⟨trivial, hload⟩

theorem State.standbyOutput_honest {s : State} (hw : s.outputsWf) (h : s.Honest) (n : OutputNo) : (s.standbyOutput n).Honest :=
  h.setOutputFaulted n (o := (s.om.outputs[n]).toOff) (on := false) rfl rfl (OutputRecord.toOff_isRetired (hw n))
    (by simp [State.SameOwners, State.standbyOutput])

theorem State.restoreOutput_honest {s : State} (h : s.Honest) (n : OutputNo) : (s.restoreOutput n).Honest := by
  simp only [State.restoreOutput]
  split
  next hs =>
    have hretired : s.om.outputs[n].state = .retired := by simpa using hs
    refine State.countFaultIf_honest (h.setOutputRetired n
      (o := ({ s.om.outputs[n] with overload := 0, decay := 0 } : OutputRecord).toRest s.isActive) (OutputRecord.toRest_role _ _)
      (OutputRecord.toRest_due (Nat.zero_le _) _).2 ?_ (by simp [State.SameOwners, State.setOutput, State.setCondition])) n _
    rw [(OutputRecord.toRest_due (Nat.zero_le _) _).1, hretired]
    rfl
  next hs =>
    refine h.setOutputRetired n (o := { s.om.outputs[n] with overload := 0, decay := 0 }) rfl
      (OutputRecord.isRetired_of_le (by simpa using hs) (Nat.zero_le _)) rfl (by simp [State.SameOwners, State.setOutput, State.setCondition])

/-- What ROLE_DUPLICATE of each output is after the role statuses are set, and every other condition stands. -/
theorem State.setRoleStatuses_holds (s : State) (k : Condition) :
    s.setRoleStatuses.cr.holds k =
      match k with
      | .roleDuplicate n => s.roleStatusOf n == .duplicate
      | k => s.cr.holds k := by
  simp only [State.setRoleStatuses, State.eachOutput, State.setCondition]
  cases k
  case roleDuplicate n => fin_cases n <;> simp [Conditions.put_holds, Conditions.put_holds_ne]
  all_goals simp [Conditions.put_holds_ne]

theorem State.setRoleStatuses_honest {s : State} (h : s.Honest) : s.setRoleStatuses.Honest := fun k => by
  have hom : ∀ n : OutputNo, s.setRoleStatuses.om.outputs[n] = { s.om.outputs[n] with roleStatus := s.roleStatusOf n } := fun n => by
    have heq : s.setRoleStatuses.om = (s.mapOutputs fun n o => { o with roleStatus := s.roleStatusOf n }).om := by
      simp [State.setRoleStatuses, State.eachOutput]
    rw [heq, State.mapOutputs_outputs]
  rw [State.setRoleStatuses_holds]
  cases k
  case roleDuplicate n => simp only [State.conditionDue, hom]
  case outputFaulted n => simpa only [State.conditionDue, hom] using h (.outputFaulted n)
  case outputRetired n => simpa only [State.conditionDue, hom] using h (.outputRetired n)
  all_goals
    refine (h _).trans ?_
    simp [State.conditionDue, State.inReset]

theorem State.deriveRoles_honest {s : State} (h : s.Honest) : s.deriveRoles.Honest :=
  State.setRoleStatuses_honest (h.frame (by simp [State.SameOwners]))

/-- The station's outputs have their form and its conditions are honest: what each operation of the modes keeps. -/
def State.Sound (s : State) : Prop := s.outputsWf ∧ s.Honest

theorem State.Sound.frame {s t : State} (h : s.Sound) (ht : s.SameOwners t) : t.Sound := by
  have hom : t.om = s.om := by
    obtain ⟨-, -, -, -, -, hom, -⟩ := ht
    exact hom
  exact ⟨State.outputsWf_of_om h.1 hom, h.2.frame ht⟩

end Sys2Proof.Machine
end

section
/-! Proofs about the condition set (section 11.4), continued: modes, rounds and the commands, which keep the conditions honest with the form of the
output records. -/

namespace Sys2Proof.Machine

/-! ## Modes -/

theorem State.evalGo_sound {s : State} (h : s.Sound) : s.evalGo.Sound := ⟨State.evalGo_outputsWf h.1, State.evalGo_honest h.2⟩

/-- An operation that leaves the outputs keeps the pair where it keeps the conditions honest. -/
theorem State.Sound.of_om {s t : State} (h : s.Sound) (hom : t.om = s.om) (ht : t.Honest) : t.Sound := ⟨State.outputsWf_of_om h.1 hom, ht⟩

theorem State.checkDecoder_sound {s : State} (h : s.Sound) : s.checkDecoder.Sound := h.of_om (by simp) (State.checkDecoder_honest h.2)

theorem State.switchIfDown_sound {s : State} (h : s.Sound) : s.switchIfDown.Sound := h.of_om (by simp) (State.switchIfDown_honest h.2)

theorem State.startTakeover_honest {s : State} (h : s.Honest) : s.startTakeover.Honest :=
  h.of_due rfl fun k => by cases k <;> rfl

theorem State.wake_sound {s : State} (h : s.Sound) : s.wake.Sound :=
  h.of_om (by simp) ((State.startTakeover_honest (State.powerInput_honest (State.powerInput_honest h.2 .a) .b)).frame
    (by simp [State.SameOwners, State.wake]))

theorem State.enterMode_sound {s : State} (h : s.Sound) (old : Mode) : (s.enterMode old).Sound := by
  have hawake : (if old == .standby then s.wake else s).Sound := by
    split
    · exact State.wake_sound h
    · exact h
  simp only [State.enterMode]
  split
  · exact State.evalGo_sound (State.checkDecoder_sound (State.eachOutput_keeps hawake fun x n hx =>
      ⟨State.activateOutput_outputsWf hx.1 n, State.activateOutput_honest hx.2 n⟩))
  · exact State.evalGo_sound (State.checkDecoder_sound (State.eachOutput_keeps hawake fun x n hx =>
      ⟨State.quietOutput_outputsWf hx.1 n, State.quietOutput_honest hx.1 hx.2 n⟩))
  · have hquiet : (s.eachOutput State.standbyOutput).Sound := State.eachOutput_keeps h fun x n hx =>
      ⟨State.standbyOutput_outputsWf hx.1 n, State.standbyOutput_honest hx.1 hx.2 n⟩
    have hasleep : ({ s.eachOutput State.standbyOutput with rt := s.rt.sleep } : State).Sound :=
      ⟨hquiet.1, hquiet.2.of_due rfl fun k => by
        have hrt : (s.eachOutput State.standbyOutput).rt = s.rt := by simp [State.eachOutput]
        cases k
        case clockUnlocked => simp only [State.conditionDue, hrt, RoundTimer.sleep]
        all_goals rfl⟩
    have hinputs := State.putInput_honest (State.putInput_honest hasleep.2 .a InputRecord.reset) .b InputRecord.reset
    refine State.evalGo_sound (State.switchIfDown_sound (State.Sound.frame (State.checkDecoder_sound (hasleep.of_om ?_ hinputs)) ?_))
    · simp
    · simp [State.SameOwners, State.unpowerInput]
  · exact h

theorem State.changeMode_sound {s : State} (h : s.Sound) (m : Mode) : (s.changeMode m).Sound := by
  simp only [State.changeMode]
  split
  · exact h
  · exact State.enterMode_sound (h.frame (by simp [State.SameOwners])) _

theorem State.rederiveMode_sound {s : State} (h : s.Sound) : s.rederiveMode.Sound := by
  simp only [State.rederiveMode]
  split
  · exact State.changeMode_sound h _
  · exact h

theorem State.handRecords_sound {s : State} (h : s.Sound) (old : ZoneRecord) : (s.handRecords old).Sound := by
  have hdemands : s.followDemands.Sound :=
    h.of_om (by simp) (State.eachSource_keeps h.2 fun _ src hx => State.followDemand_honest hx src)
  have hprogram : (if s.followDemands.ownRecord.program == old.program then s.followDemands else s.followDemands.followProgram).Sound := by
    split
    · exact hdemands
    · exact hdemands.of_om (by simp) (State.followProgram_honest hdemands.2)
  simp only [State.handRecords]
  exact State.evalGo_sound (State.rederiveMode_sound (hprogram.frame (by simp [State.SameOwners])))

theorem State.applyZoneSet_sound {s : State} (h : s.Sound) (f : ZoneSetFields) : (s.applyZoneSet f).Sound :=
  State.handRecords_sound (h.frame (by simp [State.SameOwners])) _

theorem State.applyZoneState_sound {s : State} (h : s.Sound) (carried : Vector ZoneRecord 4) : (s.applyZoneState carried).Sound :=
  State.handRecords_sound (h.frame (by simp [State.SameOwners])) _

theorem State.changeTable_sound {s : State} (h : s.Sound) (change : TableChange) (own : Option Source) :
    (s.changeTable change own).Sound := by
  have htable : ({ s with st := change.table } : State).Honest := h.2.frame (by simp [State.SameOwners])
  exact State.rederiveMode_sound (h.of_om (by simp) (State.ownTakenAt_honest (State.handFreed_honest htable change.freed) own))

theorem State.judge_sound {s : State} (h : s.Sound) (slot : SlotNo) (header : Option SlotHeader) : (s.judge slot header).Sound := by
  have hfreed := State.handFreed_honest (s := { s with st := (judgeSlot s.st slot header).table }) (h.2.frame (by simp [State.SameOwners]))
    (judgeSlot s.st slot header).freed
  simp only [State.judge, State.afterTableLoss]
  split
  · exact State.rederiveMode_sound (h.of_om (by simp) hfreed)
  · exact h.of_om (by simp) hfreed

theorem State.hearSlot_sound {s : State} (h : s.Sound) (slot : SlotNo) (header : Option (SlotHeader × List Byte)) :
    (s.hearSlot slot header).Sound :=
  ⟨h.1, h.2.of_due rfl fun k => by
    cases k
    case streamNoSlot src => cases src <;> rfl
    all_goals rfl⟩

theorem State.slotEnds_sound {s : State} (h : s.Sound) (slot : SlotNo) (heard : List Byte) : (s.slotEnds slot heard).Sound := by
  have hjudge := State.judge_sound (State.hearSlot_sound h slot (validHeader s.rt.roundNumber slot heard)) slot
    ((validHeader s.rt.roundNumber slot heard).map (·.1))
  simp only [State.slotEnds]
  split
  · exact hjudge.of_om (by simp) (State.writeRing_honest hjudge.2)
  · exact hjudge

theorem State.deriveRoles_sound {s : State} (h : s.Sound) : s.deriveRoles.Sound :=
  ⟨State.deriveRoles_outputsWf h.1, State.deriveRoles_honest h.2⟩

theorem State.refreshEntry_sound {s : State} (h : s.Sound) (k : Station) (c : Option PresenceContent) : (s.refreshEntry k c).Sound := by
  simp only [State.refreshEntry]
  split
  · exact State.evalGo_sound (State.deriveRoles_sound (h.frame (by simp [State.SameOwners])))
  · exact h

theorem State.mapRole_sound {s : State} (h : s.Sound) (requester : Requester) (n : OutputNo) (role : Option Role) :
    (s.mapRole requester n role).Sound := by
  have hmapped : ({ s with cl := { s.cl with overrides := s.cl.overrides.set n (some role) } } : State).Honest :=
    h.2.of_due rfl fun k => by cases k <;> rfl
  have hroles := State.setRoleStatuses_honest (State.restoreOutput_honest hmapped n)
  have hannounced : (({ s with cl := { s.cl with overrides := s.cl.overrides.set n (some role) } } : State).restoreOutput
      n).setRoleStatuses.announce.Honest := hroles.frame (by simp [State.SameOwners])
  exact ⟨State.mapRole_outputsWf h.1 requester n role,
    (State.evalGo_honest hannounced).frame (by simp [State.SameOwners, State.mapRole])⟩

theorem State.onRoleMap_sound {s : State} (h : s.Sound) (k : Station) (p : List Byte) : (s.onRoleMap k p).Sound := by
  simp only [State.onRoleMap]
  split
  · exact State.mapRole_sound h _ _ _
  · exact h.frame (by simp [State.SameOwners])


end Sys2Proof.Machine
end

section
/-! Proofs about the condition set (section 11.4), continued: the parts of a round begin and the commands. -/

namespace Sys2Proof.Machine

/-! ## Rounds -/

/-- A discipline that moves is handed on with CLOCK_UNLOCKED. -/
theorem State.handDiscipline_sound {s : State} (h : s.Sound) (rt : RoundTimer) (lc : LinkController) (old : Discipline) :
    (({ s with rt := rt, lc := lc } : State).handDiscipline old).Sound := by
  have hset : (({ s with rt := rt, lc := lc } : State).setCondition .clockUnlocked rt.discipline.unlocked).Sound :=
    h.of_om rfl (h.2.put .clockUnlocked rfl rfl fun j hj => by cases j <;> first | exact absurd rfl hj | rfl)
  simp only [State.handDiscipline]
  split
  · exact ⟨State.cut_outputsWf hset.1, State.cut_honest hset.1 hset.2⟩
  · exact hset

theorem State.clockRound_sound {s : State} (h : s.Sound) (r : RoundBegin) : (s.clockRound r).Sound :=
  State.handDiscipline_sound h _ _ _

theorem State.peerRound_sound {s : State} (h : s.Sound) : s.peerRound.Sound := by
  have haged : ({ s with pt := { s.pt with entries := ageEntries s.pt.entries } } : State).Sound := h.frame (by simp [State.SameOwners])
  simp only [State.peerRound]
  split
  · exact State.deriveRoles_sound haged
  · exact haged

theorem State.fireWatchdog_sound {s : State} (h : s.Sound) : s.fireWatchdog.Sound := by
  have hlost := h.of_om (by simp) (State.silentFrame_honest (h.2.receiverPut { s.sr with state := .lost, watchdog := 0 }))
  simp only [State.fireWatchdog]
  split
  · exact ⟨State.cut_outputsWf hlost.1, State.cut_honest hlost.1 hlost.2⟩
  · exact hlost

theorem State.presentMissing_sound {s : State} (h : s.Sound) : s.presentMissing.Sound := h.of_om (by simp) (State.presentMissing_honest h.2)

theorem State.presentRunning_sound {s : State} (h : s.Sound) (e : RingEntry) : (s.presentRunning e).Sound := by
  simp only [State.presentRunning]
  split
  · exact h.of_om (by simp) (State.presentReceived_honest h.2 e)
  · have hmissing := State.presentMissing_sound h
    simp only [State.countMissing]
    split
    · exact State.fireWatchdog_sound hmissing
    · exact hmissing.of_om rfl (hmissing.2.receiver .rfl)

theorem State.silentFrame_sound {s : State} (h : s.Sound) : s.silentFrame.Sound := h.of_om (by simp) (State.silentFrame_honest h.2)

theorem State.presentFilling_sound {s : State} (h : s.Sound) (hs : s.sr.state = .filling) (round : RoundNo) (e : RingEntry) :
    (s.presentFilling round e).Sound := by
  simp only [State.presentFilling]
  split
  · have hrunning : ({ s with sr := { s.sr.dropLead round with state := .running, watchdog := 0, lead := none } } : State).Sound :=
      h.of_om rfl (h.2.receiver (by simp [hs]))
    exact State.presentRunning_sound (hrunning.frame (by simp [State.SameOwners, State.silentFrame])) e
  · exact State.silentFrame_sound (h.of_om rfl (h.2.receiver .rfl))

theorem State.present_sound {s : State} (h : s.Sound) : s.present.Sound := by
  simp only [State.present]
  split
  · exact State.silentFrame_sound h
  · split
    next => exact State.silentFrame_sound h
    next => exact State.silentFrame_sound h
    next hs => exact State.presentFilling_sound h hs _ _
    next => exact State.presentRunning_sound h _

theorem State.receiverRound_sound {s : State} (h : s.Sound) (d : Nat) : (s.receiverRound d).Sound := by
  simp only [State.receiverRound]
  split
  · exact State.present_sound h
  · exact State.silentFrame_sound (h.of_om (by simp) (State.dropForD_honest h.2))

theorem State.sourceRound_honest {s : State} (h : s.Honest) (r : RoundBegin) (l : LocalRound) : (s.sourceRound r l).Honest :=
  State.eachSource_keeps (State.tunerRound_honest (State.inputRound_honest (State.inputRound_honest h .a r.inputA l) .b r.inputB l) r.frontEnd
    r.demodulated) fun _ src hx => State.offerAgain_honest hx src

theorem State.sourceClose_honest {s : State} (h : s.Honest) : s.sourceClose.Honest :=
  State.tunerClose_honest (State.inputClose_honest (State.inputClose_honest h .a) .b)

theorem OutputRecord.slew_sameDue (o : OutputRecord) (v : Nat) : o.SameDue (o.slew v) := by
  simp only [OutputRecord.slew]
  split
  · exact .refl o
  · exact ⟨.rfl, .rfl, rfl⟩

theorem State.outputRound_sound {s : State} (h : s.Sound) : s.outputRound.Sound := by
  refine State.eachOutput_keeps (P := State.Sound) ?_ fun x n hx => ⟨State.recoveryStep_outputsWf hx.1 n, State.recoveryStep_honest hx.1 hx.2 n⟩
  exact ⟨State.mapOutputs_outputsWf h.1 fun _ _ ho => OutputRecord.decayStep_wf (OutputRecord.slew_wf ho s.ownRecord.volume),
    h.2.mapOutputs fun _ => (OutputRecord.slew_sameDue _ _).trans (OutputRecord.decayStep_sameDue _)⟩

theorem State.endWindow_sound {s : State} (h : s.Sound) : s.endWindow.Sound := by
  have hclosed : s.closeWindow.Sound := h.frame (by simp [State.SameOwners, State.closeWindow])
  exact State.eachSource_keeps (State.changeMode_sound hclosed s.closeWindow.derivedMode) fun _ src hx =>
    hx.of_om (by simp) (State.settle_honest hx.2 src _)

theorem State.joinRound_sound {s : State} (h : s.Sound) : s.joinRound.Sound := by
  simp only [State.joinRound]
  split
  · split
    · exact State.endWindow_sound h
    · exact h.frame (by simp [State.SameOwners])
  · exact h

theorem State.roundBegin_sound {s : State} (h : s.Sound) (r : RoundBegin) : (s.roundBegin r).Sound := by
  apply State.roundBegin_keeps (P := State.Sound) (h := h)
  case swapRound => exact fun _ hx => hx.frame (by simp [State.SameOwners])
  case rampRound => exact fun _ hx => ⟨State.rampRound_outputsWf hx.1, State.rampRound_honest hx.1 hx.2⟩
  case clockRound => exact fun _ hx => State.clockRound_sound hx r
  case peerRound => exact fun _ => State.peerRound_sound
  case receiverRound => exact fun d _ hx => State.receiverRound_sound hx d
  case sourceRound => exact fun l _ hx => hx.of_om (by simp) (State.sourceRound_honest hx.2 r l)
  case evalGo => exact fun _ => State.evalGo_sound
  case switchIfDown => exact fun _ => State.switchIfDown_sound
  case clearRound =>
    exact fun x hx => ⟨hx.1, State.Honest.outputs (s := { x with sr := { x.sr with gathered := [] } }) (hx.2.receiver .rfl)
      (by simp [State.SameOwners]) fun _ => .refl _⟩
  case outputRound => exact fun _ => State.outputRound_sound
  case joinRound => exact fun _ => State.joinRound_sound
  case sourceClose => exact fun _ hx => hx.of_om (by simp) (State.sourceClose_honest hx.2)
  case presenceRound => exact fun _ hx => hx.frame (by simp [State.SameOwners])

end Sys2Proof.Machine
end

section
/-! Proofs about the condition set (section 11.4), continued: the commands, and the theorem of the set. -/

namespace Sys2Proof.Machine

theorem Conditions.put_held_congr {c d : Conditions} (h : d.held = c.held) (k : Condition) (on : Bool) : (d.put k on).held = (c.put k on).held := by
  simp only [Conditions.put, Conditions.holds_congr h, h]
  split
  · exact h
  · rfl

@[simp] theorem State.closeEvent_held (s : State) : s.closeEvent.cr.held = s.cr.held := rfl

@[simp] theorem State.closePosition_held (s : State) : s.closePosition.cr.held = s.cr.held := rfl

@[simp] theorem State.onStatusQuery_held (s : State) (k : Station) (p : List Byte) : (s.onStatusQuery k p).cr.held = s.cr.held := by
  simp only [State.onStatusQuery]
  split
  · rfl
  · simp

theorem State.onTake_sound {s : State} (f : ArbField) {act : State → State → State} (h : s.Sound)
    (ha : ∀ b x : State, x.Sound → (act b x).Sound) : (s.onTake f act).Sound := by
  simp only [State.onTake]
  split
  · have htaken : (s.endMark.takeMessage f).Sound := h.frame (by simp [State.SameOwners])
    exact (ha s.endMark _ htaken).frame (by simp [State.SameOwners])
  · exact h

theorem State.onRequest_sound {s : State} (cls : BitVec 3) (k : Station) (p : List Byte) {act : State → State} (h : s.Sound)
    (ha : ∀ x : State, x.Sound → (act x).Sound) : (s.onRequest cls k p act).Sound :=
  State.onTake_sound _ h fun _ x hx => by
    split
    · exact ha x hx
    · exact hx

theorem State.atRoundBegin_sound {s : State} {act : State → State} (h : s.Sound)
    (ha : ∀ x : State, x.Sound → (act x).Sound) : (s.atRoundBegin act).Sound := by
  obtain ⟨before, after, heq⟩ := s.atRoundBegin_eq act
  have hbefore : ({ s with mm := before } : State).Sound := h.frame (by simp [State.SameOwners])
  rw [heq]
  exact (ha _ hbefore).frame (by simp [State.SameOwners])

theorem State.closeEvent_sound {s : State} (h : s.Sound) : s.closeEvent.Sound := h.frame (by simp [State.SameOwners])

theorem State.setOutput_sound {s : State} (h : s.Sound) (n : OutputNo) {o : OutputRecord} (ho : o.wf) (hdue : (s.om.outputs[n]).SameDue o) :
    (s.setOutput n o).Sound :=
  ⟨State.setOutput_outputsWf h.1 n ho, h.2.setOutput n hdue⟩

theorem State.holdSteps_honest {s : State} (h : s.Honest) (n : OutputNo) : (s.holdSteps n).Honest := h.setOutput n ⟨.rfl, .rfl, rfl⟩

theorem State.holdStepsIf_sound {s : State} (h : s.Sound) (n : OutputNo) (b : Bool) : (s.holdStepsIf n b).Sound := by
  cases b
  · exact h
  · exact ⟨State.holdSteps_outputsWf h.1 n, State.holdSteps_honest h.2 n⟩

theorem State.holdRamp_sound {s : State} (h : s.Sound) (n : OutputNo) : (s.holdRamp n).Sound :=
  ⟨State.holdRamp_outputsWf h.1 n, h.2.setOutput n ⟨.rfl, .rfl, rfl⟩⟩

theorem State.faultEvent_honest {s : State} (h : s.Honest) (n : OutputNo) (edge : FaultEdge) : (s.faultEvent n edge).Honest := by
  simp only [State.faultEvent]
  split
  · obtain ⟨before, after, heq⟩ := s.atRoundBegin_eq fun x => ((x.countFault n).holdSteps n).switchIfDown
    have hbefore : ({ s with mm := before } : State).Honest := h.frame (by simp [State.SameOwners])
    rw [heq]
    exact (State.switchIfDown_honest (State.holdSteps_honest (State.countFault_honest hbefore n) n)).frame (by simp [State.SameOwners])
  · exact State.switchIfDown_honest (State.countFault_honest h n)

/-- A supply that moves puts SUPPLY_LOW. -/
theorem State.setSupply_sound {s : State} (h : s.Sound) (sm : SupplyLevel) :
    (({ s with sm := sm } : State).setCondition .supplyLow (sm == .low)).evalGo.Sound :=
  State.evalGo_sound (h.of_om rfl (h.2.put .supplyLow rfl rfl fun j hj => by cases j <;> first | exact absurd rfl hj | rfl))

theorem State.driveMute_sound {s : State} (h : s.Sound) (on : Bool) : (s.driveMute on).Sound := by
  simp only [State.driveMute]
  split
  next hreset =>
    exact h.of_om rfl (h.2.of_due rfl fun j => by
      cases j
      case muteLine => simp [State.conditionDue, State.inReset, show (s.rc.powerOn || s.rc.nReset) = true from hreset]
      all_goals rfl)
  next hrun =>
    refine State.closeEvent_sound (State.evalGo_sound (h.of_om rfl (h.2.put .muteLine rfl ?_ fun j hj => ?_)))
    · simp_all [State.conditionDue, State.inReset, State.setCondition]
    · cases j <;> first | exact absurd rfl hj | rfl

theorem State.configure_honest {s : State} (h : s.Honest) (values : Option ConfigValues) : (s.configure values).Honest := by
  refine h.put .configInvalid (on := values.isNone) rfl ?_ fun j hj => ?_
  · cases values <;> rfl
  · cases j <;> first | exact absurd rfl hj | rfl

theorem State.leaveReset_honest {s : State} (h : s.Honest) (hheld : s.cr.held = Conditions.reset.held) {rc : ResetControl} (hrc : rc.holds = false)
    (straps : Station) : (({ s with rc := rc } : State).leaveReset straps).Honest := by
  refine h.put .muteLine (Conditions.put_held_congr hheld.symm _ _) ?_ fun j hj => ?_
  · simp_all [State.conditionDue, State.inReset, State.leaveReset, ResetControl.holds]
  · cases j <;> first | exact absurd rfl hj | rfl

theorem State.resetWith_outputs (sectors : Vector Sector 2) (rc : ResetControl) (pins : Pins) (draws : Nat) (pending : List Instr) (n : OutputNo) :
    (State.resetWith sectors rc pins draws pending).om.outputs[n] = OutputRecord.reset := by
  simp [State.resetWith, OutputModulators.reset]

/-- The condition set after reset holds CLOCK_UNLOCKED and SUPPLY_LOW (R186). -/
theorem Conditions.reset_holds (k : Condition) : Conditions.reset.holds k = (k == .clockUnlocked || k == .supplyLow) := by
  cases k
  case outputFaulted n | outputRetired n | roleDuplicate n => revert n; decide
  case streamNoSlot src => cases src <;> decide
  case inputUnsupported id => cases id <;> decide
  all_goals decide

theorem State.resetWith_sound (sectors : Vector Sector 2) {rc : ResetControl} (hrc : rc.holds = true) (pins : Pins) (draws : Nat) (pending : List Instr) :
    (State.resetWith sectors rc pins draws pending).Sound := by
  refine ⟨fun n => ?_, fun k => ?_⟩
  · rw [State.resetWith_outputs]
    simp [OutputRecord.wf, OutputRecord.reset, OutState.sounding]
  · have hreset : (State.resetWith sectors rc pins draws pending).inReset = true := hrc
    refine (Conditions.reset_holds k).trans ?_
    cases k
    case muteLine =>
      simp only [State.conditionDue, hreset]
      rfl
    case outputFaulted n | outputRetired n | roleDuplicate n =>
      simp only [State.conditionDue, State.resetWith_outputs]
      rfl
    case streamNoSlot src => cases src <;> rfl
    case inputUnsupported id => cases id <;> rfl
    all_goals rfl

theorem State.driveClock_honest {s : State} (h : s.Honest) (id : InputId) (on : Bool) : (s.driveClock id on).Honest :=
  h.of_due rfl fun j => by
    cases j
    case muteLine => cases id <;> rfl
    all_goals rfl

theorem State.startJoin_honest {s : State} (h : s.Honest) : s.startJoin.Honest := by
  have hentered : ({ s with
      cl := { s.cl with joined := true }
      pt := { s.pt with mode := .joining, joinCount := 0 }
      rt := { s.rt with takeover := .fromJoin } } : State).Honest := h.of_due rfl fun j => by cases j <;> rfl
  exact (State.powerInput_honest (State.powerInput_honest hentered .a) .b).frame (by simp [State.SameOwners, State.startJoin, State.reportStatus])

theorem ResetControl.set_holds (rc : ResetControl) (cause : ResetCause) : (rc.set cause true).holds = true := by
  cases cause <;> simp [ResetControl.set, ResetControl.holds]

/-- The end of a cause at which the part does not leave reset changes nothing of whether it is in reset. -/
theorem ResetControl.set_false_holds {rc : ResetControl} {cause : ResetCause} (h : ¬(rc.holds && !(rc.set cause false).holds) = true) :
    (rc.set cause false).holds = rc.holds := by
  cases cause <;> simp_all [ResetControl.set, ResetControl.holds]

open State in
/-- Every command keeps the conditions honest, with the form of the output records. -/
theorem exec_keeps_sound {i : Instr} {s t : State} (h : s.Sound) (hheld : s.inReset = true → s.cr.held = Conditions.reset.held)
    (he : exec i s = .next t) : t.Sound := by
  refine ⟨exec_keeps_outputs h.1 he, ?_⟩
  have hframe : ∀ x : State, s.SameOwners x → x.closeEvent.Honest := fun x hx => (closeEvent_sound (h.frame hx)).2
  cases i <;> cases he
  case roundBegin r =>
    split
    · exact (closeEvent_sound (roundBegin_sound h r)).2
    · exact h.2
  case takeoverTimerExpiry =>
    split
    · have hexpired : ({ s with
          rt := { s.rt.expiryStep with outgoing := some (s.markToSend false), isSender := true, takeover := .stopped } } : State).Sound := by
        refine h.of_om rfl (h.2.of_due rfl fun j => ?_)
        cases j
        case clockUnlocked =>
          simp only [conditionDue, RoundTimer.expiryStep]
          split <;> simp_all [Discipline.unlocked, RoundTimer.holdOver]
        all_goals rfl
      exact (closeEvent_sound (evalGo_sound hexpired)).2
    · exact h.2
  case holdoverExpiry =>
    split
    · exact (closeEvent_sound (atRoundBegin_sound h fun x hx => switchIfDown_sound (handDiscipline_sound hx x.rt.free x.lc .holdover))).2
    · exact h.2
  case zoneSet p =>
    refine (onTake_sound _ h fun _ x hx => ?_).2
    split
    · exact applyZoneSet_sound hx _
    · exact rederiveMode_sound hx
  case zoneState p =>
    refine (onTake_sound _ h fun _ x hx => ?_).2
    split
    · exact applyZoneState_sound hx _
    · exact rederiveMode_sound hx
  case claim | release => exact (onTake_sound _ h fun _ x hx => changeTable_sound hx _ _).2
  case presence =>
    refine (onTake_sound _ h fun _ x hx => ?_).2
    have hflag : ∀ b, (x.clearJoinFlag b).Sound := fun b => hx.frame (by simp [SameOwners])
    exact refreshEntry_sound (hflag _) _ _
  case reply | listPage | presetData | status | unknownKind => exact (onTake_sound _ h fun _ _ hx => hx).2
  case roleMap => exact (onRequest_sound _ _ _ h fun x hx => onRoleMap_sound hx _ _).2
  case statusQuery => exact (onRequest_sound _ _ _ h fun x hx => hx.frame (by simp [SameOwners])).2
  case tune | seek | scan | presetRecall | presetStore | presetClear | presetRead | listRead =>
    exact (onRequest_sound _ _ _ h fun x hx => hx.frame (by simp [SameOwners])).2
  case messageVoided =>
    split
    · exact h.2.frame (by simp [SameOwners])
    · exact h.2
  case slotEnd =>
    split
    · exact (closeEvent_sound (slotEnds_sound h _ _)).2
    · exact h.2
  case slotExpiry =>
    split
    · exact (closeEvent_sound (judge_sound h _ _)).2
    · exact h.2
  case watchdogExpiry =>
    split
    · exact (closeEvent_sound (atRoundBegin_sound h fun x hx =>
        switchIfDown_sound (evalGo_sound (fireWatchdog_sound (presentMissing_sound hx))))).2
    · exact h.2
  case peerAbsence station =>
    split
    · refine (closeEvent_sound (atRoundBegin_sound h fun x hx => ?_)).2
      have hremoved : ({ x with pt := { x.pt with entries := x.pt.entries.set station none } } : State).Sound :=
        hx.frame (by simp [SameOwners])
      exact evalGo_sound (deriveRoles_sound hremoved)
    · exact h.2
  case rampUpComplete n =>
    split
    · exact (closeEvent_sound (setOutput_sound h n (OutputRecord.rampAhead_wf (h.1 n) _) (OutputRecord.rampAhead_sameDue (h.1 n) _))).2
    · exact h.2
  case rampDownComplete n =>
    split
    · exact (closeEvent_sound (atRoundBegin_sound h fun x hx => switchIfDown_sound (evalGo_sound
        (setOutput_sound hx n (OutputRecord.rampAhead_wf (hx.1 n) x.isActive) (OutputRecord.rampAhead_sameDue (hx.1 n) x.isActive))))).2
    · exact h.2
  case outputFault n edge =>
    have hdriven : (s.driveFaultLine n (edge != .releases)).Honest := h.2.of_due rfl fun j => by cases j <;> rfl
    dsimp only
    split
    · exact (faultEvent_honest hdriven n edge).frame (by simp [SameOwners])
    · exact hdriven
  case faultRecoveryEnd n =>
    split
    next hc =>
      simp only [Bool.and_eq_true, beq_iff_eq] at hc
      obtain ⟨⟨-, hfaulted⟩, -⟩ := hc
      have hrecovered : (s.recoverAt n 2).Sound := ⟨recoverAt_outputsWf h.1 n hfaulted (by decide), recoverAt_honest h.1 h.2 n hfaulted 2⟩
      exact (closeEvent_sound (holdStepsIf_sound (holdRamp_sound hrecovered n) n _)).2
    next => exact h.2
  case overloadDecay n =>
    split
    · have hdecayed : (s.setOutput n (s.om.outputs[n]).decayAhead).Sound :=
        setOutput_sound h n (OutputRecord.wf_of_eq (OutputRecord.decayMove_wf (h.1 n)) rfl)
          ((OutputRecord.decayMove_sameDue _).trans ⟨.rfl, .rfl, rfl⟩)
      exact (closeEvent_sound hdecayed).2
    · exact h.2
  case supplyMoveToLow =>
    split
    · exact (closeEvent_sound (setSupply_sound h .low)).2
    · exact h.2
  case supplyMoveToNormal =>
    split
    · have hnormal : (({ s with sm := .normal } : State).setCondition .supplyLow false).evalGo.Honest := (setSupply_sound h .normal).2
      exact hnormal.frame (by simp [SameOwners])
    · exact h.2
  case muteLineAssert | muteLineRelease => exact (driveMute_sound h _).2
  case carrierBoundary =>
    split
    · exact h.2
    · have hmapped := h.2.mapOutputs (f := s.boundaryOutput s.om.period) fun _ => ⟨.rfl, .rfl, rfl⟩
      exact hmapped.outputs (by simp [SameOwners]) fun _ => .refl _
  case joinWindowEnd =>
    split
    · exact (closeEvent_sound (atRoundBegin_sound h fun x hx => endWindow_sound hx)).2
    · exact h.2
  case clockGained id =>
    have hdriven := driveClock_honest h.2 id true
    split
    · exact (putInput_honest hdriven id { InputRecord.reset with state := .acquiring, clockGap := true }).frame (by simp [SameOwners])
    · exact hdriven
  case clockLost id =>
    exact (atInput_honest (driveClock_honest h.2 id false) id fun _ => { InputRecord.reset with clockGap := true }).frame
      (by simp [SameOwners])
  case syncPattern id c => exact (atInput_honest h.2 id fun r => r.seePattern c).frame (by simp [SameOwners])
  case blockCompletion id block =>
    exact (atInput_honest h.2 id fun r => if r.inProgress then r.complete block else r).frame (by simp [SameOwners])
  case syncLost id =>
    split
    · exact (atInput_honest h.2 id fun r => r.ahead InputRecord.loseSync).frame (by simp [SameOwners])
    · exact h.2
  case acquiringEnd id =>
    split
    · exact (putInput_honest h.2 id ((s.ir.get id).ahead InputRecord.acquired)).frame (by simp [SameOwners])
    · exact h.2
  case imageRead image =>
    split
    · exact (configure_honest h.2 (readImage image)).frame (by simp [SameOwners])
    · exact h.2
  case joinStart =>
    split
    · exact (startJoin_honest h.2).frame (by simp [SameOwners])
    · exact h.2
  case settleEnd | unheldTimeout | gateClose | recoveryEnd
      | readComplete | programmingCommit | supersedingEnd | erasingEnd | copyingEnd | headerEnd =>
    split
    · exact hframe _ (by simp [SameOwners])
    · exact h.2
  case reset cause => exact (resetWith_sound _ (ResetControl.set_holds s.rc cause) _ _ _).2
  case leaveReset cause straps =>
    dsimp only
    split
    next hleaves =>
      simp only [Bool.and_eq_true, Bool.not_eq_true'] at hleaves
      obtain ⟨hreset, hfree⟩ := hleaves
      exact leaveReset_honest h.2 (hheld hreset) hfree straps
    next hstays =>
      have hsame : (s.rc.set cause false).holds = s.rc.holds := ResetControl.set_false_holds hstays
      refine h.2.of_due rfl fun j => ?_
      cases j
      case muteLine => exact congrArg (fun b => !b && s.pins.mute) hsame
      all_goals rfl
  case senderMarkDue =>
    split
    · split <;> exact h.2.of_due rfl fun j => by cases j <;> rfl
    · exact h.2
  case readSuspendDelayEnd => split <;> exact h.2

end Sys2Proof.Machine
end

section
/-! Proofs about the condition set (section 11.4), concluded: in reset the set stands as reset leaves it. -/

namespace Sys2Proof.Machine

theorem State.not_joined_inReset {s : State} (h : s.inReset = true) : s.joined = false := by simp [State.joined, h]

theorem State.not_takes_inReset {s : State} (h : s.inReset = true) : s.takes = false := by simp [State.takes, State.not_joined_inReset h]

theorem State.not_inputsPowered_inReset {s : State} (h : s.inReset = true) : s.inputsPowered = false := by
  simp [State.inputsPowered, State.not_joined_inReset h]

theorem State.onTake_rc (s : State) (f : ArbField) {act : State → State → State} (ha : ∀ b x : State, (act b x).rc = x.rc) :
    (s.onTake f act).rc = s.rc := by
  simp only [State.onTake]
  split
  · simp [ha]
  · rfl

theorem State.onRequest_rc (s : State) (cls : BitVec 3) (k : Station) (p : List Byte) {act : State → State} (ha : ∀ x : State, (act x).rc = x.rc) :
    (s.onRequest cls k p act).rc = s.rc :=
  State.onTake_rc s _ fun _ x => by
    split
    · exact ha x
    · rfl

theorem State.atRoundBegin_rc (s : State) {act : State → State} (ha : ∀ x : State, (act x).rc = x.rc) : (s.atRoundBegin act).rc = s.rc := by
  obtain ⟨before, after, heq⟩ := s.atRoundBegin_eq act
  rw [heq]
  exact ha _

theorem State.faultEvent_rc (s : State) (n : OutputNo) (edge : FaultEdge) : (s.faultEvent n edge).rc = s.rc := by
  simp only [State.faultEvent]
  split
  · exact State.atRoundBegin_rc s fun x => by simp
  · simp

/-- A part that is in reset after a command other than RESET was in reset before it (R186). -/
theorem exec_inReset {i : Instr} {s t : State} (hi : ∀ cause, i ≠ .reset cause) (he : exec i s = .next t) (ht : t.inReset = true) :
    s.inReset = true := by
  have hrc : ∀ x : State, x.rc = s.rc → x.inReset = true → s.inReset = true := fun x hx hreset => by
    simpa only [State.inReset, hx] using hreset
  cases i
  case reset cause => exact absurd rfl (hi cause)
  case leaveReset cause straps =>
    cases he
    dsimp only at ht
    split at ht
    next hleaves =>
      simp only [Bool.and_eq_true] at hleaves
      exact hleaves.1
    next hstays => exact (ResetControl.set_false_holds hstays).symm.trans ht
  all_goals
    cases he
    refine hrc _ ?_ ht
  case roundBegin r =>
    split
    · simp
    · rfl
  case zoneSet p | zoneState p =>
    refine State.onTake_rc _ _ fun _ x => ?_
    split <;> simp
  case claim | release | presence | reply | listPage | presetData | status | unknownKind => exact State.onTake_rc _ _ fun _ x => by simp
  case roleMap | tune | seek | scan | presetRecall | presetStore | presetClear | presetRead | listRead | statusQuery =>
    exact State.onRequest_rc _ _ _ _ fun x => by simp
  case holdoverExpiry | watchdogExpiry | peerAbsence | rampDownComplete | joinWindowEnd =>
    split
    · simpa using State.atRoundBegin_rc _ fun x => by simp
    · rfl
  case outputFault n edge =>
    dsimp only
    split
    · exact State.faultEvent_rc _ n edge
    · rfl
  case senderMarkDue =>
    split
    · split <;> rfl
    · rfl
  case muteLineAssert | muteLineRelease =>
    simp only [State.driveMute]
    split <;> simp
  case clockLost | syncPattern | blockCompletion => simp [State.driveClock]
  all_goals split <;> simp [State.driveClock]

/-- In reset no command but LEAVE_RESET moves a condition, where RESET sets them anew (R186). -/
theorem exec_held_inReset {i : Instr} {s t : State} (hreset : s.inReset = true) (hheld : s.cr.held = Conditions.reset.held)
    (he : exec i s = .next t) (ht : t.inReset = true) : t.cr.held = Conditions.reset.held := by
  have hj := State.not_joined_inReset hreset
  have htakes := State.not_takes_inReset hreset
  have hpowered := State.not_inputsPowered_inReset hreset
  cases i <;> cases he
  case reset => rfl
  case leaveReset cause straps =>
    dsimp only at ht ⊢
    split at ht
    next hleaves =>
      simp only [Bool.and_eq_true, Bool.not_eq_true'] at hleaves
      exact absurd (show (s.rc.set cause false).holds = true from ht) (by simp [hleaves])
    next hstays =>
      rw [if_neg hstays]
      exact hheld
  case muteLineAssert | muteLineRelease => simpa [State.driveMute, hreset] using hheld
  case clockGained | acquiringEnd => simpa [hpowered, State.driveClock] using hheld
  case clockLost id =>
    have hdriven : (s.driveClock id false).inputsPowered = false := hpowered
    simpa [State.atInput, hdriven] using hheld
  case syncLost =>
    split
    · simpa [State.atInput, hpowered] using hheld
    · exact hheld
  case syncPattern | blockCompletion => simpa [State.atInput, hpowered] using hheld
  case readComplete | programmingCommit | supersedingEnd | erasingEnd | copyingEnd | headerEnd | readSuspendDelayEnd =>
    split <;> simpa using hheld
  all_goals simpa [State.onRequest, State.onTake, hj, htakes, hreset, State.driveFaultLine] using hheld

/-- What is in reset after a command holds the conditions of reset. -/
theorem exec_keeps_resetSet {i : Instr} {s t : State} (h : s.inReset = true → s.cr.held = Conditions.reset.held) (he : exec i s = .next t)
    (ht : t.inReset = true) : t.cr.held = Conditions.reset.held := by
  by_cases hi : ∃ cause, i = .reset cause
  · obtain ⟨cause, rfl⟩ := hi
    cases he
    rfl
  · have hreset := exec_inReset (fun cause hc => hi ⟨cause, hc⟩) he ht
    exact exec_held_inReset hreset (h hreset) he ht

end Sys2Proof.Machine

namespace Sys2Proof.Proofs

open Sys2Proof.Machine

/-- Settles O42, by the command at the front of the queue: what it moves with a condition it puts, and what it moves without one no condition
speaks of. -/
theorem everyStepKeepsTheConditions : Obligations.EveryStepKeepsTheConditions := fun s t hw hc he => by
  have hkept : t.Sound ∧ (t.inReset = true → t.cr.held = Conditions.reset.held) :=
    step_keeps (P := fun x => x.Sound ∧ (x.inReset = true → x.cr.held = Conditions.reset.held))
      (fun x hx => ⟨hx.1.frame (by simp [State.SameOwners]), hx.2⟩) (fun x rest hx => ⟨hx.1.frame (by simp [State.SameOwners]), hx.2⟩)
      (fun i x y hx hy => ⟨exec_keeps_sound hx.1 hx.2 hy, exec_keeps_resetSet hx.2 hy⟩) ⟨⟨hw, hc.1⟩, hc.2⟩ he
  exact ⟨hkept.1.2, hkept.2⟩

end Sys2Proof.Proofs
end

section
/-! Proofs about the slot table's form (R49, R51): each operation of the table keeps every run whole, one run to a stream and the limit of a
station. -/

namespace Sys2Proof.Machine

/-! ## The slots that a station holds -/

theorem SlotTable.toList_eq (st : SlotTable) : st.toList = (List.finRange 24).map fun i => st[i] := by
  apply List.ext_getElem <;> simp

/-- The slots counted against a station's limit, slot by slot. -/
theorem heldOutside_eq (st : SlotTable) (owner : Station) (freed : Stream → Bool) :
    heldOutside st owner freed =
      (List.finRange 24).countP fun i => st[i].any fun x => x.stream.station == owner && !freed x.stream := by
  simp only [heldOutside, ← List.countP_eq_length_filter]
  rw [SlotTable.toList_eq, List.countP_map]
  rfl

theorem SlotTable.heldBy_eq (st : SlotTable) (owner : Station) :
    st.heldBy owner = (List.finRange 24).countP fun i => st[i].any fun x => x.stream.station == owner := by
  simp [SlotTable.heldBy, heldOutside_eq]

/-- A table that holds in each slot at most what another holds gives a station no more slots. -/
theorem SlotTable.heldBy_mono {st st' : SlotTable} (owner : Station)
    (h : ∀ i : Fin 24, ∀ e, st'[i] = some e → e.stream.station = owner → ∃ d, st[i] = some d ∧ d.stream.station = owner) :
    st'.heldBy owner ≤ st.heldBy owner := by
  rw [SlotTable.heldBy_eq, SlotTable.heldBy_eq]
  refine List.countP_mono_left fun i _ hi => ?_
  obtain ⟨e, he, howner⟩ := (Option.any_eq_true _ _).mp hi
  obtain ⟨d, hd, hsame⟩ := h i e he (by simpa using howner)
  exact (Option.any_eq_true _ _).mpr ⟨d, hd, by simpa using hsame⟩

/-- A run takes as many slots as its kind is wide. -/
theorem inRun_count (kind : Kind) (start : SlotNo) : (List.finRange 24).countP (fun i => inRun kind start.val i.val) ≤ widthOf kind := by
  cases kind <;> revert start <;> decide

theorem countP_or_le {α : Type} (l : List α) (p q : α → Bool) : (l.countP fun x => p x || q x) ≤ l.countP p + l.countP q := by
  induction l with
  | nil => simp
  | cons a l ih =>
    simp only [List.countP_cons]
    cases p a <;> cases q a <;> simp <;> omega

/-! ## Tables of the same runs -/

/-- Two tables that differ in silence counts alone. -/
def SlotTable.SameRuns (st st' : SlotTable) : Prop :=
  ∀ i : Fin 24, st'[i] = st[i] ∨ ∃ e n, st[i] = some e ∧ n < 8 ∧ st'[i] = some { e with silence := n }

theorem SlotTable.set_sameRuns {st : SlotTable} {slot : SlotNo} {e : SlotEntry} (he : st[slot] = some e) {n : Nat} (hn : n < 8) :
    st.SameRuns (st.set slot (some { e with silence := n })) := fun i => by
  by_cases hi : slot = i
  · subst hi
    exact .inr ⟨e, n, he, hn, by simp⟩
  · exact .inl (by simpa using Vector.getElem_set_ne _ _ fun hv => hi (Fin.ext hv))

theorem SlotTable.SameRuns.back {st st' : SlotTable} (h : st.SameRuns st') {i : Fin 24} {e : SlotEntry} (he : st'[i] = some e) :
    ∃ n, st[i] = some { e with silence := n } := by
  rcases h i with hsame | ⟨d, n, hd, -, hmoved⟩
  · exact ⟨e.silence, hsame.symm.trans he⟩
  · rw [hmoved] at he
    cases he
    exact ⟨d.silence, hd⟩

theorem SlotTable.SameRuns.forth {st st' : SlotTable} (h : st.SameRuns st') {i : Fin 24} {e : SlotEntry} (he : st[i] = some e) :
    ∃ n, st'[i] = some { e with silence := n } := by
  rcases h i with hsame | ⟨d, n, hd, -, hmoved⟩
  · exact ⟨e.silence, hsame.trans he⟩
  · rw [hd] at he
    cases he
    exact ⟨n, hmoved⟩

theorem SlotTable.SameRuns.silence {st st' : SlotTable} (h : st.SameRuns st') (hw : st.runWhole) {i : Fin 24} {e : SlotEntry}
    (he : st'[i] = some e) : e.silence < 8 := by
  rcases h i with hsame | ⟨d, n, hd, hn, hmoved⟩
  · obtain ⟨-, -, hsilence, -⟩ := hw i e (hsame.symm.trans he)
    exact hsilence
  · rw [hmoved] at he
    cases he
    exact hn

theorem SlotTable.SameRuns.wf {st st' : SlotTable} (h : st.SameRuns st') (hw : st.wf) : st'.wf := by
  obtain ⟨hwhole, hone, hheld⟩ := hw
  refine ⟨fun i e he => ?_, fun i j a b ha hb hab => ?_, fun k => ?_⟩
  · obtain ⟨n, hn⟩ := h.back he
    obtain ⟨hin, hend, -, hrun⟩ := hwhole i _ hn
    refine ⟨hin, hend, h.silence hwhole he, fun j hj => ?_⟩
    obtain ⟨m, hm⟩ := hrun j hj
    exact h.forth (e := { e with silence := m }) hm
  · obtain ⟨n, hn⟩ := h.back ha
    obtain ⟨m, hm⟩ := h.back hb
    exact hone i j { a with silence := n } { b with silence := m } hn hm hab
  · refine le_trans (SlotTable.heldBy_mono k fun i e he hk => ?_) (hheld k)
    obtain ⟨n, hn⟩ := h.back he
    exact ⟨_, hn, hk⟩

/-! ## Runs freed and runs written -/

theorem SlotTable.without_some {st : SlotTable} {freed : Stream → Bool} {i : Fin 24} {e : SlotEntry} (h : st.without freed i = some e) :
    st[i] = some e ∧ freed e.stream = false := by
  simp only [SlotTable.without] at h
  split at h
  · cases h
  next hkept => exact ⟨h, by simpa [h] using hkept⟩

theorem SlotTable.without_kept {st : SlotTable} {freed : Stream → Bool} {i : Fin 24} {e : SlotEntry} (h : st[i] = some e)
    (hf : freed e.stream = false) : st.without freed i = some e := by
  simp only [SlotTable.without, h]
  simp [hf]

theorem freeRuns_wf {st : SlotTable} (h : st.wf) (freed : Stream → Bool) : SlotTable.wf (freeRuns st freed) := by
  obtain ⟨hwhole, hone, hheld⟩ := h
  have hback : ∀ i e, (freeRuns st freed)[(i : Fin 24)] = some e → st[i] = some e ∧ freed e.stream = false := fun i e he =>
    SlotTable.without_some ((freeRuns_getElem st freed i).symm.trans he)
  refine ⟨fun i e he => ?_, fun i j a b ha hb => ?_, fun k => ?_⟩
  · obtain ⟨hi, hkept⟩ := hback i e he
    obtain ⟨hin, hend, hsilence, hrun⟩ := hwhole i e hi
    refine ⟨hin, hend, hsilence, fun j hj => ?_⟩
    obtain ⟨n, hn⟩ := hrun j hj
    exact ⟨n, (freeRuns_getElem st freed j).trans (SlotTable.without_kept hn hkept)⟩
  · exact hone i j a b (hback i a ha).1 (hback j b hb).1
  · exact le_trans (SlotTable.heldBy_mono k fun i e he hk => ⟨e, (hback i e he).1, hk⟩) (hheld k)

/-- A run written inside the slots, over freed runs alone and within its owner's limit. -/
theorem placeRun_wf {st : SlotTable} (h : st.wf) {freed : Stream → Bool} {stream : Stream} {kind : Kind} {start : SlotNo}
    (hend : start.val + widthOf kind ≤ 24) (hstream : freed stream = true)
    (hover : ∀ (i : Fin 24) e, inRun kind start.val i.val = true → st[i] = some e → freed e.stream = true)
    (hlimit : SlotTable.allows st stream.station freed kind = true) :
    SlotTable.wf (placeRun (freeRuns st freed) stream kind start) := by
  obtain ⟨hwhole, hone, hheld⟩ := h
  have hinside : ∀ i : Fin 24, inRun kind start.val i.val = true →
      (placeRun (freeRuns st freed) stream kind start)[i] = some { stream := stream, kind := kind, start := start, silence := 0 } := fun i hi => by
    rw [placeRun_getElem, SlotTable.placed, if_pos hi]
  have hback : ∀ (i : Fin 24) e, (placeRun (freeRuns st freed) stream kind start)[i] = some e → inRun kind start.val i.val = false →
      st[i] = some e ∧ freed e.stream = false := fun i e he hi => by
    rw [placeRun_getElem, SlotTable.placed, if_neg (by simp [hi])] at he
    exact SlotTable.without_some he
  have hforth : ∀ (i : Fin 24) e, st[i] = some e → freed e.stream = false →
      (placeRun (freeRuns st freed) stream kind start)[i] = some e := fun i e he hf => by
    have hi : ¬inRun kind start.val i.val = true := fun hin => by simp [hover i e hin he] at hf
    rw [placeRun_getElem, SlotTable.placed, if_neg hi]
    exact SlotTable.without_kept he hf
  refine ⟨fun i e he => ?_, fun i j a b ha hb hab => ?_, fun k => ?_⟩
  · by_cases hi : inRun kind start.val i.val = true
    · cases (hinside i hi).symm.trans he
      exact ⟨hi, hend, Nat.zero_lt_succ 7, fun j hj => ⟨0, hinside j hj⟩⟩
    · obtain ⟨hst, hkept⟩ := hback i e he (by simpa using hi)
      obtain ⟨hin, hfits, hsilence, hrun⟩ := hwhole i e hst
      refine ⟨hin, hfits, hsilence, fun j hj => ?_⟩
      obtain ⟨n, hn⟩ := hrun j hj
      exact ⟨n, hforth j _ hn hkept⟩
  · by_cases hi : inRun kind start.val i.val = true <;> by_cases hj : inRun kind start.val j.val = true
    · cases (hinside i hi).symm.trans ha
      cases (hinside j hj).symm.trans hb
      exact ⟨rfl, rfl⟩
    · cases (hinside i hi).symm.trans ha
      obtain ⟨-, hkept⟩ := hback j b hb (by simpa using hj)
      exact absurd ((congrArg freed hab).symm.trans hstream) (by simp [hkept])
    · cases (hinside j hj).symm.trans hb
      obtain ⟨-, hkept⟩ := hback i a ha (by simpa using hi)
      exact absurd ((congrArg freed hab).trans hstream) (by simp [hkept])
    · exact hone i j a b (hback i a ha (by simpa using hi)).1 (hback j b hb (by simpa using hj)).1 hab
  · by_cases hk : stream.station = k
    · subst hk
      simp only [SlotTable.allows, decide_eq_true_eq, heldOutside_eq] at hlimit
      rw [SlotTable.heldBy_eq]
      refine le_trans (le_trans (List.countP_mono_left (q := fun i : Fin 24 => inRun kind start.val i.val
        || st[i].any fun x => x.stream.station == stream.station && !freed x.stream) fun i _ hi => ?_) (countP_or_le _ _ _)) ?_
      · by_cases hin : inRun kind start.val i.val = true
        · simp [hin]
        · obtain ⟨e, he, howner⟩ := (Option.any_eq_true _ _).mp hi
          obtain ⟨hst, hkept⟩ := hback i e he (by simpa using hin)
          refine Bool.or_eq_true_iff.mpr (.inr ((Option.any_eq_true _ _).mpr ⟨e, hst, by simpa [hkept] using howner⟩))
      · have := inRun_count kind start
        omega
    · refine le_trans (SlotTable.heldBy_mono k fun i e he howner => ?_) (hheld k)
      by_cases hi : inRun kind start.val i.val = true
      · cases (hinside i hi).symm.trans he
        exact absurd howner hk
      · exact ⟨e, (hback i e he (by simpa using hi)).1, howner⟩

/-! ## The operations of the table -/

theorem takeClaim_wf {st : SlotTable} (h : st.wf) (sender : Station) (fields : Option (Stream × Kind × SlotNo)) :
    SlotTable.wf (takeClaim st sender fields).table := by
  simp only [takeClaim]
  split
  next stream kind start =>
    split
    next hc =>
      simp only [claimAccepted, Bool.and_eq_true] at hc
      obtain ⟨-, hfits⟩ := hc
      obtain ⟨hend, hover, hlimit⟩ := (placementFits_iff st stream kind start).mp hfits
      exact placeRun_wf h hend (by simp) (fun i e hi he => by simpa [he] using hover i hi) hlimit
    next => exact h
  next => exact h

theorem takeRelease_wf {st : SlotTable} (h : st.wf) (sender : Station) (field : Option Stream) :
    SlotTable.wf (takeRelease st sender field).table := by
  simp only [takeRelease]
  split
  · split
    · exact freeRuns_wf h _
    · exact h
  · exact h

theorem countSilence_wf {st : SlotTable} (h : st.wf) (slot : SlotNo) : SlotTable.wf (countSilence st slot).table := by
  simp only [countSilence]
  split
  next e he =>
    split
    · exact freeRuns_wf h _
    next hs => exact (SlotTable.set_sameRuns he (by omega)).wf h
  next => exact h

theorem correctTable_wf {st : SlotTable} (h : st.wf) {slot : SlotNo} {header : SlotHeader}
    (hend : slot.val - header.part + widthOf header.kind ≤ 24) {c : TableChange} (hc : correctTable st slot header = some c) :
    SlotTable.wf c.table := by
  have hover : ∀ (i : Fin 24) e, inRun header.kind (impliedStart slot header).val i.val = true → st[i] = some e →
      freedByCorrection st slot header e.stream = true := fun i e hi he => by
    simp only [freedByCorrection, Bool.or_eq_true, List.any_eq_true, Bool.and_eq_true]
    exact .inr ⟨i, List.mem_finRange i, hi, by simp [he]⟩
  by_cases hlimit : heldOutside st header.stream.station (freedByCorrection st slot header) + widthOf header.kind ≤ 8
  · rw [correctTable, if_pos hlimit] at hc
    obtain rfl := Option.some.inj hc
    exact placeRun_wf h hend (by simp [freedByCorrection]) hover (by simpa [SlotTable.allows] using hlimit)
  · rw [correctTable, if_neg hlimit] at hc
    cases hc

theorem judgeSlot_wf {st : SlotTable} (h : st.wf) (slot : SlotNo) {header : Option SlotHeader}
    (hheader : ∀ x, header = some x → slot.val - x.part + widthOf x.kind ≤ 24) :
    SlotTable.wf (judgeSlot st slot header).table := by
  have hcorrect : ∀ x other, header = some x → SlotTable.wf other.table → SlotTable.wf ((correctTable st slot x).getD other).table :=
    fun x other hx hother => by
      cases hc : correctTable st slot x with
      | none => exact hother
      | some c => exact correctTable_wf h (hheader x hx) hc
  simp only [judgeSlot]
  split
  next => exact countSilence_wf h slot
  next x =>
    split
    next e he =>
      split
      · exact (SlotTable.set_sameRuns he (by decide)).wf h
      · exact hcorrect x _ rfl (countSilence_wf h slot)
    next => exact hcorrect x _ rfl h

/-! ## The commands -/

theorem State.onTake_st {s : State} (f : ArbField) {act : State → State → State} (P : SlotTable → Prop) (h : P s.st)
    (ha : ∀ b x : State, P x.st → P (act b x).st) : P (s.onTake f act).st := by
  simp only [State.onTake]
  split
  · simpa using ha s.endMark (s.endMark.takeMessage f) (by simpa using h)
  · exact h

theorem State.onRequest_st (s : State) (cls : BitVec 3) (k : Station) (p : List Byte) {act : State → State} (ha : ∀ x : State, (act x).st = x.st) :
    (s.onRequest cls k p act).st = s.st :=
  State.onTake_st _ (· = s.st) rfl fun _ x hx => by
    split
    · exact (ha x).trans hx
    · exact hx

theorem State.atRoundBegin_st (s : State) {act : State → State} (ha : ∀ x : State, (act x).st = x.st) : (s.atRoundBegin act).st = s.st := by
  obtain ⟨before, after, heq⟩ := s.atRoundBegin_eq act
  rw [heq]
  exact ha _

theorem State.faultEvent_st (s : State) (n : OutputNo) (edge : FaultEdge) : (s.faultEvent n edge).st = s.st := by
  simp only [State.faultEvent]
  split
  · exact State.atRoundBegin_st s fun x => by simp
  · simp

theorem State.judge_slotTable {s : State} (h : SlotTable.wf s.st) (slot : SlotNo) {header : Option SlotHeader}
    (hheader : ∀ x, header = some x → slot.val - x.part + widthOf x.kind ≤ 24) : SlotTable.wf (s.judge slot header).st := by
  simpa [State.judge] using judgeSlot_wf h slot hheader

theorem State.slotEnds_slotTable {s : State} (h : SlotTable.wf s.st) (slot : SlotNo) (heard : List Byte) :
    SlotTable.wf (s.slotEnds slot heard).st := by
  rw [State.slotEnds_st]
  refine judgeSlot_wf h slot fun x hx => ?_
  obtain ⟨⟨header, data⟩, hvalid, rfl⟩ := Option.map_eq_some_iff.mp hx
  obtain ⟨-, hend, -⟩ := readSlot_part (validHeader_read hvalid)
  exact hend

theorem SlotTable.empty_wf : SlotTable.wf (Vector.replicate 24 none) := by
  refine ⟨fun i e he => ?_, fun i j a b ha => ?_, fun k => ?_⟩
  · simp at he
  · simp at ha
  · simp [SlotTable.heldBy_eq]

/-- Every command keeps the slot table's form. -/
theorem exec_keeps_slots {i : Instr} {s t : State} (h : SlotTable.wf s.st) (he : exec i s = .next t) : SlotTable.wf t.st := by
  have hsame : ∀ x : State, x.st = s.st → SlotTable.wf x.st := fun x hx => hx ▸ h
  cases i <;> cases he
  case claim =>
    refine State.onTake_st _ SlotTable.wf h fun _ x hx => ?_
    rw [State.changeTable_st]
    exact takeClaim_wf hx _ _
  case release =>
    refine State.onTake_st _ SlotTable.wf h fun _ x hx => ?_
    rw [State.changeTable_st]
    exact takeRelease_wf hx _ _
  case slotEnd slot heard =>
    split
    · exact State.slotEnds_slotTable h slot heard
    · exact h
  case slotExpiry slot =>
    split
    · exact State.judge_slotTable h slot (by simp)
    · exact h
  case reset => exact SlotTable.empty_wf
  case zoneSet p | zoneState p =>
    refine hsame _ (State.onTake_st _ (· = s.st) rfl fun _ x hx => ?_)
    split <;> simpa using hx
  case presence | reply | listPage | presetData | status | unknownKind =>
    exact hsame _ (State.onTake_st _ (· = s.st) rfl fun _ x hx => by simpa using hx)
  case roleMap | tune | seek | scan | presetRecall | presetStore | presetClear | presetRead | listRead | statusQuery =>
    exact hsame _ (State.onRequest_st _ _ _ _ fun x => by simp)
  case holdoverExpiry | watchdogExpiry | peerAbsence | rampDownComplete | joinWindowEnd =>
    split
    · exact hsame _ (by simpa using State.atRoundBegin_st _ fun x => by simp)
    · exact h
  case outputFault n edge =>
    dsimp only
    split
    · exact hsame _ (State.faultEvent_st _ n edge)
    · exact h
  case senderMarkDue =>
    split
    · split <;> exact h
    · exact h
  case leaveReset =>
    dsimp only
    split <;> exact h
  case muteLineAssert | muteLineRelease =>
    refine hsame _ ?_
    simp only [State.driveMute]
    split <;> simp
  case clockLost | syncPattern | blockCompletion => exact hsame _ (by simp [State.driveClock])
  all_goals
    refine hsame _ ?_
    split <;> simp [State.driveClock]

end Sys2Proof.Machine

namespace Sys2Proof.Proofs

open Sys2Proof.Machine

/-- Settles O25, by the command at the front of the queue: only a CLAIM, a RELEASE, the judgement of a slot and RESET write the table. -/
theorem everyStepKeepsTheSlotTable : Obligations.EveryStepKeepsTheSlotTable := fun _ _ =>
  step_keeps (P := fun s => SlotTable.wf s.st) (fun _ h => h) (fun _ _ h => h) fun _ _ _ => exec_keeps_slots

end Sys2Proof.Proofs
end

section
/-! Proofs about steps, reset and the state after it (section 12). -/

namespace Sys2Proof.Machine

/-! ## A step with no command waiting -/

theorem LinkController.endMark_noMark {lc : LinkController} (h : lc.markOnLink = false) : lc.endMark = lc := by
  simp [LinkController.endMark, h]

theorem LinkController.endMark_markOnLink (lc : LinkController) : lc.endMark.markOnLink = false := by
  simp only [LinkController.endMark]
  split
  · rfl
  next h => simpa using h

/-- The first position opens for the head of the queue of a station that contends (R19). -/
theorem LinkController.endMark_opens {lc : LinkController} {e : QueueEntry} {rest : List QueueEntry} (hmark : lc.markOnLink = true)
    (hflight : lc.inFlight = none) (hopen : lc.windowOpen = true) (hfirst : lc.positions = 0) (hflag : lc.sendFlag = false)
    (hqueue : lc.queue = e :: rest) : lc.endMark.queue = { e with inFlight := true } :: rest := by
  simp [LinkController.endMark, LinkController.openPosition, hmark, hflight, hopen, hfirst, hflag, hqueue]

/-! ## What a command leaves of the waiting commands -/

theorem State.onRequest_pending (s : State) (cls : BitVec 3) (k : Station) (p : List Byte) {act : State → State}
    (ha : ∀ x : State, (act x).pending = x.pending) : (s.onRequest cls k p act).pending = s.pending :=
  State.onTake_pending _ _ fun _ x => by
    split
    · exact ha x
    · rfl

theorem State.atRoundBegin_pending (s : State) {act : State → State} (ha : ∀ x : State, (act x).pending = x.pending) :
    (s.atRoundBegin act).pending = s.pending := by
  obtain ⟨before, after, heq⟩ := s.atRoundBegin_eq act
  rw [heq]
  exact ha _

theorem State.faultEvent_pending (s : State) (n : OutputNo) (edge : FaultEdge) : (s.faultEvent n edge).pending = s.pending := by
  simp only [State.faultEvent]
  split
  · exact State.atRoundBegin_pending s fun x => by simp
  · simp

/-- Every command completes, and leaves the commands that wait. -/
theorem exec_completes (c : Instr) (s : State) : ∃ t, exec c s = .next t ∧ t.pending = s.pending := by
  cases c <;> refine ⟨_, rfl, ?_⟩
  case reset => rfl
  case claim | release | presence | reply | listPage | presetData | status | unknownKind => exact State.onTake_pending _ _ fun _ x => by simp
  case zoneSet p | zoneState p =>
    refine State.onTake_pending _ _ fun _ x => ?_
    split <;> simp
  case roleMap | tune | seek | scan | presetRecall | presetStore | presetClear | presetRead | listRead | statusQuery =>
    exact State.onRequest_pending _ _ _ _ fun x => by simp
  case holdoverExpiry | watchdogExpiry | peerAbsence | rampDownComplete | joinWindowEnd =>
    split
    · simpa using State.atRoundBegin_pending _ fun x => by simp
    · rfl
  case outputFault n edge =>
    dsimp only
    split
    · exact State.faultEvent_pending _ n edge
    · rfl
  case senderMarkDue =>
    split
    · split <;> rfl
    · rfl
  case leaveReset =>
    dsimp only
    split <;> rfl
  case muteLineAssert | muteLineRelease =>
    simp only [State.driveMute]
    split <;> simp
  case clockLost | syncPattern | blockCompletion => simp [State.driveClock]
  all_goals split <;> simp [State.driveClock]

/-! ## Reset -/

/-- A reset that cuts no erase short leaves the sectors as they stand (R175). -/
theorem PresetStore.sectorsAfterReset_kept {ps : PresetStore} {draw : Nat} (h : ps.cutStep ≠ some .erasing) :
    ps.sectorsAfterReset draw = ps.sectors := by
  simp only [PresetStore.sectorsAfterReset]
  split
  next hcut _ => exact absurd hcut h
  next => rfl

end Sys2Proof.Machine

namespace Sys2Proof.Proofs

open Sys2Proof.Machine

/-- Settles O1, by the two arms of a step. -/
theorem stepRunsTheFrontCommand : Obligations.StepRunsTheFrontCommand := by
  refine ⟨fun _ _ _ => rfl, fun s hidle => ⟨s.endMark, ?_, ?_, LinkController.endMark_markOnLink _, LinkController.endMark_msgs _, ?_, ?_⟩⟩
  · simp only [step, hidle]
  · intro p hp
    cases p <;> first | rfl | exact absurd (.head _) hp
  · intro hmark
    simp only [State.endMark, LinkController.endMark_noMark hmark]
  · exact fun e rest hmark hflight hopen hfirst hflag hqueue => LinkController.endMark_opens hmark hflight hopen hfirst hflag hqueue

/-- Settles O2, by the command: each changes parts of the state other than the queue of commands. -/
theorem everyCommandCompletes : Obligations.EveryCommandCompletes := exec_completes

/-- Settles O55, by the reset values that the state is built from. -/
theorem resetLeavesTheResetValues : Obligations.ResetLeavesTheResetValues := by
  intro cause s
  have hreset : (State.resetWith (s.ps.sectorsAfterReset s.freeDraws) (s.rc.set cause true) s.pins (s.freeDraws + 1) s.pending).inReset = true :=
    ResetControl.set_holds s.rc cause
  have hcoef : ∀ i j : Fin 8, (Machine.Matrix.zero.rows[i])[j] = Coef.zero := by simp [Machine.Matrix.zero]
  have hrecord : ∀ z : Zone, ZoneTable.reset.records[z] = ZoneRecord.reset := by simp [ZoneTable.reset]
  have hsectors : s.ps.cutStep ≠ some .erasing → s.ps.sectorsAfterReset s.freeDraws = s.ps.sectors := PresetStore.sectorsAfterReset_kept
  refine ⟨_, rfl, hreset, by simp [State.attnLow, hreset], rfl, ?_⟩
  refine ⟨rfl, rfl, rfl, rfl, rfl, rfl, rfl, rfl, fun i j => ⟨hcoef i j, hcoef i j⟩, rfl, rfl, rfl, rfl, rfl, rfl, rfl, ?peers, ?_⟩
  case peers => simp [State.resetWith, PeerTable.reset]
  refine ⟨?slots, ?pubs, rfl, rfl, rfl, hrecord, ?inputs, rfl, rfl, ?outputs, ?_⟩
  case slots => simp [State.resetWith]
  case pubs => intro src; cases src <;> rfl
  case inputs => intro id; cases id <;> exact ⟨rfl, rfl⟩
  case outputs =>
    intro n
    rw [State.resetWith_outputs]
    exact ⟨rfl, rfl, rfl, rfl, rfl, rfl, rfl, rfl, rfl⟩
  refine ⟨rfl, rfl, rfl, rfl, rfl, rfl, rfl, rfl, rfl, hsectors, rfl, rfl, rfl, ?overrides, fun k => ?_⟩
  case overrides => simp [State.resetWith, Configuration.reset]
  exact (Bool.eq_iff_iff.mp (Conditions.reset_holds k)).trans (by simp)

/-- Settles O59, by the invariants of the reset values, one by one. -/
theorem invariantsHoldAtReset : Obligations.InvariantsHoldAtReset := by
  have hsound : State.reset.Sound := State.resetWith_sound _ rfl _ _ _
  have hqueue : State.reset.lc.wf := by simp [LinkController.wf, State.reset, State.resetWith, LinkController.reset]
  exact ⟨hqueue, SlotTable.empty_wf, State.zonesWf_resetWith _ _ _ _ _, State.holdersWf_resetWith _ _ _ _ _, hsound.1,
    ⟨hsound.2, fun _ => rfl⟩, rfl⟩

end Sys2Proof.Proofs
end

section
/-! Proofs about rounds and the sample clock (chapter 1), continued: which marks are evaluated, the marks that a station sends, and the ends of
HOLDOVER. -/

namespace Sys2Proof.Machine

/-! ## Marks that are evaluated (R10, R11, R16) -/

/-- A mark is an own takeover mark where one stands outgoing and no other sender's mark is heard in its place. -/
theorem RoundTimer.hearsTakeover_iff (rt : RoundTimer) (own : Station) (mark : Option MarkFields) :
    rt.hearsTakeover own mark = true ↔
      (∃ o, rt.outgoing = some o ∧ o.periodic = false) ∧ ∀ m, mark = some m → m.sender = own := by
  cases hout : rt.outgoing <;> cases mark <;> simp [RoundTimer.hearsTakeover, RoundTimer.hearsOwn, hout, and_comm]

theorem RoundTimer.rebases_iff (rt : RoundTimer) (own : Station) (mark : Option MarkFields) (interval : Nat) :
    rt.rebases own mark interval = true ↔
      rt.prevCapture = none ∨ (∀ m, mark = some m → rt.currentSender ≠ some m.sender) ∨ rt.lostAsSender = true
        ∨ rt.hearsTakeover own mark = true ∨ 15360 < interval := by
  cases mark with
  | none => simp [RoundTimer.rebases]
  | some m =>
    simp only [RoundTimer.rebases, Bool.or_eq_true, bne_iff_ne, decide_eq_true_eq, Option.isNone_iff_eq_none, Option.some.injEq, forall_eq']
    tauto

theorem State.markError_none_iff (s : State) (r : RoundBegin) :
    s.markError r = none ↔
      s.rt.discipline = .free ∨ s.rt.rebases s.own (readMark r.sender r.body) (s.rt.interval s.own (readMark r.sender r.body) r.elapsed) = true := by
  simp only [State.markError, RoundTimer.evaluated]
  split
  next h => simpa [or_comm] using h
  next h => simpa [or_comm] using h

theorem State.markError_some {s : State} {r : RoundBegin} {e : Int} (h : s.markError r = some e) :
    e = (s.rt.interval s.own (readMark r.sender r.body) r.elapsed : Int) - 12288 := by
  simp only [State.markError, RoundTimer.evaluated] at h
  split at h
  · cases h
  · exact (Option.some.inj h).symm

theorem State.roundBegin_trim (s : State) (r : RoundBegin) :
    (s.roundBegin r).closeEvent.rt.trim =
      match s.markError r with
      | some e => trimAfter s.rt.trim e
      | none => s.rt.trim := by
  simp only [State.closeEvent_frame, RoundTimer.SameClock.fields _ _ (s.roundBegin_clock r)]
  rfl

/-! ## HOLDOVER (R15) -/

theorem RoundTimer.disciplineStep_holdover {rt : RoundTimer} (h : rt.discipline = .holdover) (error : Option Int) :
    rt.disciplineStep error = rt.holdoverStep error := by
  simp only [RoundTimer.disciplineStep, h]

theorem RoundTimer.holdoverStep_locks {rt : RoundTimer} {error : Option Int} (h : 4 ≤ runAfter rt.goodRun error) :
    rt.holdoverStep error = rt.lock := by
  simp only [RoundTimer.holdoverStep, h, if_true]

theorem RoundTimer.holdoverStep_frees {rt : RoundTimer} {error : Option Int} (h : ¬4 ≤ runAfter rt.goodRun error)
    (hcount : 32 ≤ if rt.holdoverFresh = true then rt.holdover else rt.holdover + 1) : rt.holdoverStep error = rt.free := by
  simp only [RoundTimer.holdoverStep, h, if_false, hcount, if_true]

theorem RoundTimer.holdoverStep_counts {rt : RoundTimer} {error : Option Int} (h : ¬4 ≤ runAfter rt.goodRun error)
    (hcount : ¬32 ≤ if rt.holdoverFresh = true then rt.holdover else rt.holdover + 1) :
    rt.holdoverStep error = { rt with
      goodRun := runAfter rt.goodRun error
      holdover := if rt.holdoverFresh = true then rt.holdover else rt.holdover + 1
      holdoverFresh := false } := by
  simp only [RoundTimer.holdoverStep, h, if_false, hcount]

/-- The step of HOLDOVER by its run and its count: four good marks, 32 rounds, and neither. -/
theorem RoundTimer.holdoverStep_ends {rt : RoundTimer} (h : rt.discipline = .holdover) {error : Option Int} {run : Nat}
    (hrun : runAfter rt.goodRun error = run) :
    let count := if rt.holdoverFresh = true then rt.holdover else rt.holdover + 1
    if 4 ≤ run then
      (rt.holdoverStep error).discipline = .locked ∧ (rt.holdoverStep error).goodRun = 0 ∧ (rt.holdoverStep error).holdover = 0
    else if 32 ≤ count then
      (rt.holdoverStep error).discipline = .free ∧ (rt.holdoverStep error).goodRun = 0 ∧ (rt.holdoverStep error).holdover = 0
    else
      (rt.holdoverStep error).discipline = .holdover ∧ (rt.holdoverStep error).goodRun = run ∧ (rt.holdoverStep error).holdover = count := by
  subst hrun
  by_cases hlock : 4 ≤ runAfter rt.goodRun error
  · simp [hlock, RoundTimer.holdoverStep_locks hlock, RoundTimer.lock]
  · by_cases hfree : 32 ≤ if rt.holdoverFresh = true then rt.holdover else rt.holdover + 1
    · simp only [if_neg hlock, if_pos hfree, RoundTimer.holdoverStep_frees hlock hfree]
      exact ⟨rfl, rfl, rfl⟩
    · simp only [if_neg hlock, if_neg hfree, RoundTimer.holdoverStep_counts hlock hfree]
      exact ⟨h, trivial, trivial⟩

/-- A clock that loses its trust cuts the outputs (R17, R130). -/
theorem State.handDiscipline_loses (s : State) {old : Discipline} (hold : old.unlocked = false) (hnew : s.rt.discipline.unlocked = true) :
    s.handDiscipline old = (s.setCondition .clockUnlocked true).cut := by
  simp [State.handDiscipline, hold, hnew]

/-- The state that the last step of the holdover count leaves. -/
def State.freed (s : State) : State := { s with rt := s.rt.free }.handDiscipline .holdover

theorem State.freed_eq (s : State) : s.freed = (({ s with rt := s.rt.free } : State).setCondition .clockUnlocked true).cut :=
  State.handDiscipline_loses _ rfl rfl

theorem State.freed_rt (s : State) : s.freed.rt = s.rt.free := by simp [State.freed_eq]

theorem State.freed_clockUnlocked (s : State) : s.freed.cr.holds .clockUnlocked = true := by
  simp [State.freed_eq, State.setCondition, Conditions.put_holds]

theorem State.freed_silent (s : State) (n : OutputNo) : (s.freed.om.outputs[n]).state.sounding = false := by
  rw [State.freed_eq]
  exact State.cut_silent _ n (by simp [RoundTimer.free])

theorem exec_holdoverExpiry {s : State} (hj : s.joined = true) (hd : s.rt.discipline = .holdover) (hcount : 31 ≤ s.rt.holdover)
    (hfresh : s.rt.holdoverFresh = false) :
    exec .holdoverExpiry s = .next (s.atRoundBegin fun x => x.freed.switchIfDown).closeEvent := by
  simp [exec, execHoldoverExpiry, hj, hd, hcount, hfresh, State.freed]

/-! ## Marks sent (R5, R6, R7, R9) -/

/-- The state that a takeover mark leaves concerns the clock and the go condition alone. -/
theorem State.takeover_sent {s : State} (hstatus : s.cr.statusDue = false) (hpresence : s.pt.presenceDue = false) :
    let t := ({ s with
      rt := { s.rt.expiryStep with outgoing := some (s.markToSend false), isSender := true, takeover := .stopped } } : State).evalGo.closeEvent
    t.rt.isSender = true ∧ t.rt.takeover = .stopped ∧ t.rt.roundNumber = s.rt.roundNumber
      ∧ t.rt.outgoing = some ⟨(s.rt.roundNumber.map (· + 1)).getD 0, s.cl.values.d, false⟩ ∧ ChangesOnly [.rt, .om] s t := by
  have hnumber : s.rt.expiryStep.roundNumber = s.rt.roundNumber := by
    simp only [RoundTimer.expiryStep]
    split <;> rfl
  rw [State.closeEvent_quiet (by simpa using hstatus) (by simpa using hpresence)]
  refine ⟨rfl, rfl, hnumber, rfl, fun p hp => ?_⟩
  cases p
  case rt | om => exact absurd (by decide) hp
  all_goals rfl

theorem exec_senderMarkDue {s : State} (hj : s.joined = true) (hmay : s.mayMark = true) (hsender : s.rt.isSender = true)
    (hout : s.rt.outgoing = none) (link : LinkAtSend) :
    exec (.senderMarkDue link) s = .next
      (if markCompletes s.own link then { s with rt := { s.rt with outgoing := some (s.markToSend true) } }
      else { s with rt := { s.rt with lostAsSender := s.rt.lostAsSender || markLoses s.own link } }) := by
  simp [exec, execSenderMarkDue, hj, hmay, hsender, hout]

end Sys2Proof.Machine

namespace Sys2Proof.Proofs

open Sys2Proof.Machine

/-- Settles O4, by the tests that a mark passes before it is evaluated. -/
theorem evaluatedMarksTrimTheClock : Obligations.EvaluatedMarksTrimTheClock := by
  intro r s hj
  refine ⟨?_, fun e he => State.markError_some he, _, exec_roundBegin r hj, s.roundBegin_trim r⟩
  rw [State.markError_none_iff, RoundTimer.rebases_iff, RoundTimer.hearsTakeover_iff]

/-- Settles O7, by the run and the count after the mark: four good marks, 32 rounds, and neither. -/
theorem holdoverEnds : Obligations.HoldoverEnds := by
  intro r s hj hd
  obtain ⟨t, hexec, hdisc, hrun, hcount⟩ := exec_roundBegin_discipline hj r
  refine ⟨t, hexec, ?_⟩
  rw [hdisc, hrun, hcount, RoundTimer.disciplineStep_holdover hd]
  cases s.markError r with
  | none => exact RoundTimer.holdoverStep_ends hd rfl
  | some e => exact RoundTimer.holdoverStep_ends hd (by simp [runAfter, goodError])

/-- Settles O8, by what the link carries when the mark is due. -/
theorem senderSendsItsMark : Obligations.SenderSendsItsMark := by
  intro link s hj hmay hsender hout
  rw [exec_senderMarkDue hj hmay hsender hout]
  cases link with
  | quiet => rfl
  | opening => simp [markCompletes, markLoses]
  | contended other =>
    by_cases hwins : s.own ≤ other
    · simp [markCompletes, hwins, State.markToSend]
    · simp [markCompletes, markLoses, hwins, lt_of_not_ge hwins]

/-- Settles O9, by whether the mark completes: one that does concerns the clock and the go condition alone. -/
theorem takeoverSendsAMark : Obligations.TakeoverSendsAMark := by
  intro link s ht hquiet
  obtain ⟨hstatus, hpresence⟩ := State.quiet_iff.mp hquiet
  have hsent := State.takeover_sent hstatus hpresence
  refine ⟨_, exec_takeoverTimerExpiry ht link, ?_⟩
  cases link with
  | quiet => exact hsent
  | opening => rfl
  | contended other =>
    by_cases hwins : s.own ≤ other
    · simpa only [markCompletes, hwins, decide_true, if_true] using hsent
    · simp [markCompletes, hwins]

/-- Settles O10: a clock that the count leaves in FREE cuts every output. -/
theorem holdoverExpiryCuts : Obligations.HoldoverExpiryCuts := by
  intro s hj hd hcount hfresh
  obtain ⟨before, after, heq⟩ := s.atRoundBegin_eq fun x => x.freed.switchIfDown
  refine ⟨_, exec_holdoverExpiry hj hd hcount hfresh, ?_⟩
  rw [heq]
  refine ⟨?_, ?_, fun n => ?_, fun p hp => ?_, by simp [State.freed_eq], by simp [State.freed_eq]⟩
  · simp [State.freed_rt, RoundTimer.free, hfresh]
  · exact (State.switchIfDown_holds _ _ (by simp) (by simp)).trans (State.freed_clockUnlocked _)
  · simpa using State.freed_silent { s with mm := before } n
  · cases p
    case rt | om | sr | cr | pd | mm | lc | pt => exact absurd (by decide) hp
    all_goals simp [State.same, State.freed_eq]

end Sys2Proof.Proofs
end

section
/-! Proofs about control traffic (chapter 2), continued: what a void and a message that no block acts on leave, and the offers that a full queue and a
pending report meet. -/

namespace Sys2Proof.Machine

/-! ## Voids and messages that no block acts on (R22 to R24, R30, R31) -/

@[simp] theorem LinkController.endPosition_voidDriven (lc : LinkController) (own : Station) (f : ArbField) (taken v : Bool) :
    (lc.endPosition own f taken v).voidDriven = v := rfl

theorem exec_messageVoided {s : State} (h : s.takes = true) (hquiet : s.quiet = true) (field : ArbField) (received : List Byte) :
    exec (.messageVoided field received) s = .next { s with
      lc := (s.lc.endMark.endPosition s.own field false (!s.lc.endMark.isOwnPosition s.own field && bodyIsVoid received)).openPosition } := by
  obtain ⟨hstatus, hpresence⟩ := State.quiet_iff.mp hquiet
  simp only [exec, execMessageVoided, h, if_true]
  exact congrArg _ (State.closePosition_quiet hstatus hpresence)

/-- A message that no block acts on is taken, and the next position opens. -/
theorem State.onTake_ignored {s : State} (h : s.takes = true) (hquiet : s.quiet = true) (field : ArbField) :
    s.onTake field (fun _ x => x) = { s.endMark.takeMessage field with lc := (s.endMark.takeMessage field).lc.openPosition } := by
  obtain ⟨hstatus, hpresence⟩ := State.quiet_iff.mp hquiet
  rw [State.onTake_takes h]
  exact State.closePosition_quiet hstatus hpresence

theorem State.onRequest_ignored {s : State} (h : s.takes = true) (hquiet : s.quiet = true) {p : List Byte} (hp : addressedTo s.own p = false)
    (cls : BitVec 3) (k : Station) (act : State → State) :
    s.onRequest cls k p act
      = { s.endMark.takeMessage ⟨cls, k⟩ with lc := (s.endMark.takeMessage ⟨cls, k⟩).lc.openPosition } := by
  have hother : addressedTo (s.endMark.takeMessage ⟨cls, k⟩).own p = false := hp
  rw [← State.onTake_ignored h hquiet, State.onRequest, State.onTake_takes h, State.onTake_takes h]
  simp only [hother]
  rfl

/-! ## Offers to a full queue (R28) -/

theorem find_coalescing_none {q : List QueueEntry} {m : Msg} (h : q.any (fun e => coalesces e.msg m) = false) :
    q.find? (fun e => coalesces e.msg m) = none := by
  simpa [List.find?_eq_none] using h

theorem LinkController.offer_full {lc : LinkController} {m : Msg} (hfull : 8 ≤ lc.queue.length)
    (hnew : lc.queue.any (fun e => coalesces e.msg m) = false) :
    lc.offer m = if m.cls = 0 then
        match dropYoungest lc.queue with
        | some q => { lc with queue := enterQueue q m }
        | none => lc
      else lc := by
  simp only [LinkController.offer, find_coalescing_none hnew, if_neg (Nat.not_lt.mpr hfull), beq_iff_eq] <;> rfl

theorem LinkController.offer_full_displaces {lc : LinkController} {m : Msg} (hfull : 8 ≤ lc.queue.length)
    (hnew : lc.queue.any (fun e => coalesces e.msg m) = false) (hcls : m.cls = 0) {q : List QueueEntry} (hq : dropYoungest lc.queue = some q) :
    lc.offer m = { lc with queue := enterQueue q m } := by
  rw [LinkController.offer_full hfull hnew, if_pos hcls]
  simp only [hq]

theorem LinkController.offer_full_discards {lc : LinkController} {m : Msg} (hfull : 8 ≤ lc.queue.length)
    (hnew : lc.queue.any (fun e => coalesces e.msg m) = false) (h : m.cls ≠ 0 ∨ dropYoungest lc.queue = none) : lc.offer m = lc := by
  rw [LinkController.offer_full hfull hnew]
  split
  next hcls => simp only [h.resolve_left (not_not_intro hcls)]
  next => rfl

/-- The youngest class-3 message that is not in flight is the last one of them. -/
theorem dropYoungest_append {lost : QueueEntry} {behind : List QueueEntry} (hcls : lost.msg.cls = 3) (hground : lost.inFlight = false)
    (hbehind : ∀ e ∈ behind, e.msg.cls = 3 → e.inFlight = true) (before : List QueueEntry) :
    dropYoungest (before ++ lost :: behind) = some (before ++ behind) := by
  induction before with
  | nil => simp [dropYoungest, dropYoungest_none.mpr hbehind, hcls, hground]
  | cons e before ih => simp only [List.cons_append, dropYoungest, ih]

/-- A class-0 message enters behind the class-0 messages at the head of the queue. -/
theorem enterQueue_zeros {m : Msg} (hm : m.cls = 0) {zeros others : List QueueEntry} (hz : ∀ e ∈ zeros, e.msg.cls = 0)
    (ho : ∀ e ∈ others, e.msg.cls ≠ 0) : enterQueue (zeros ++ others) m = zeros ++ { msg := m, inFlight := false } :: others := by
  have hzeros : ∀ e ∈ zeros, decide (e.msg.cls ≤ m.cls) = true := fun e he => by simp [hz e he]
  rw [enterQueue, List.takeWhile_append_of_pos hzeros, List.dropWhile_append_of_pos hzeros]
  cases others with
  | nil => simp
  | cons e rest =>
    have he : ¬e.msg.cls ≤ m.cls := by
      have := ho e (.head _)
      omega
    simp [he]

/-! ## Offers that meet a pending report (R27) -/

/-- At most one entry of a queue in its form coalesces with a message. -/
theorem LinkController.wf.coalescing {lc : LinkController} (h : lc.wf) (m : Msg) : lc.queue.countP (fun e => coalesces e.msg m) ≤ 1 := by
  obtain ⟨-, -, hpresence, hstatus, -⟩ := h
  cases m
  case presence => exact le_trans (List.countP_mono_left fun e _ he => by rw [(coalesces_kind he).1]; rfl) hpresence
  case status => exact le_trans (List.countP_mono_left fun e _ he => by rw [(coalesces_kind he).2]; rfl) hstatus
  all_goals simp [coalesces]

/-- Beside the pending report no entry coalesces with an offer of its kind. -/
theorem LinkController.wf.onlyCoalescing {lc : LinkController} (h : lc.wf) {before behind : List QueueEntry} {e : QueueEntry} {m : Msg}
    (hq : lc.queue = before ++ e :: behind) (he : coalesces e.msg m = true) : ∀ x ∈ before ++ behind, coalesces x.msg m = false := by
  have hcount := h.coalescing m
  rw [hq, List.countP_append, List.countP_cons_of_pos (p := fun e : QueueEntry => coalesces e.msg m) he] at hcount
  have hnone : (before ++ behind).countP (fun e => coalesces e.msg m) = 0 := by
    rw [List.countP_append]
    omega
  exact fun x hx => by simpa using List.countP_eq_zero.mp hnone x hx

theorem LinkController.find_pending {lc : LinkController} (h : lc.wf) {before behind : List QueueEntry} {e : QueueEntry} {m : Msg}
    (hq : lc.queue = before ++ e :: behind) (he : coalesces e.msg m = true) : lc.queue.find? (fun e => coalesces e.msg m) = some e := by
  have hbefore : before.find? (fun e => coalesces e.msg m) = none :=
    find_coalescing_none (by simpa using fun x hx => h.onlyCoalescing hq he x (List.mem_append_left _ hx))
  rw [hq, List.find?_append, hbefore]
  simp [he]

theorem LinkController.offer_replaces {lc : LinkController} (h : lc.wf) {before behind : List QueueEntry} {e : QueueEntry} {m : Msg}
    (hq : lc.queue = before ++ e :: behind) (he : coalesces e.msg m = true) (hground : e.inFlight = false) :
    lc.offer m = { lc with queue := before ++ { msg := m, inFlight := false } :: behind } := by
  have hstands : ∀ l : List QueueEntry, (∀ x ∈ l, coalesces x.msg m = false) →
      l.map (fun x => if coalesces x.msg m = true then { x with msg := m } else x) = l := fun l hl =>
    (List.map_congr_left fun x hx => by simp [hl x hx]).trans l.map_id
  have hother := h.onlyCoalescing hq he
  simp only [LinkController.offer, LinkController.find_pending h hq he, hground, Bool.false_eq_true, if_false]
  rw [hq, List.map_append, List.map_cons, hstands before fun x hx => hother x (List.mem_append_left _ hx),
    hstands behind fun x hx => hother x (List.mem_append_right _ hx)]
  simp [he, hground]

theorem LinkController.offer_defers {lc : LinkController} (h : lc.wf) {before behind : List QueueEntry} {e : QueueEntry} {m : Msg}
    (hq : lc.queue = before ++ e :: behind) (he : coalesces e.msg m = true) (hflight : e.inFlight = true) : lc.offer m = lc.defer m := by
  simp only [LinkController.offer, LinkController.find_pending h hq he, hflight, if_true]

theorem LinkController.defer_report {e m : Msg} (h : coalesces e m = true) (lc : LinkController) :
    (lc.defer m).queue = lc.queue ∧ (lc.defer m).deferredFor m = some m := by
  cases m
  case presence | status => exact ⟨rfl, rfl⟩
  all_goals
    rw [coalesces_false rfl rfl] at h
    cases h

end Sys2Proof.Machine

namespace Sys2Proof.Proofs

open Sys2Proof.Machine

/-- Settles O11, by the end of the position that the void closes. -/
theorem voidedMessageActsNowhere : Obligations.VoidedMessageActsNowhere := by
  intro field received s ht hquiet
  refine ⟨_, exec_messageVoided ht hquiet field received, fun p hp => ?_, ?_, fun hown => ?_, fun hdeferred => ?_⟩
  · cases p
    case lc => exact absurd (by decide) hp
    all_goals rfl
  · exact (LinkController.openPosition_flags _).2
  · exact (LinkController.openPosition_flags _).1.trans (LinkController.endPosition_sendFlag hown)
  · have hmark : s.lc.endMark.nothingDeferred = true := (LinkController.endMark_nothingDeferred _).trans hdeferred
    rw [LinkController.openPosition_msgs, LinkController.endPosition_msgs hmark]
    simpa using LinkController.endMark_msgs s.lc

/-- Settles O12: each such command is a take after which its owner does nothing. -/
theorem ignoredMessagesAreOnlyHeard : Obligations.IgnoredMessagesAreOnlyHeard := by
  intro c field k p code s ht hquiet hc
  have hexec : exec c s = .next { s.endMark.takeMessage field with lc := (s.endMark.takeMessage field).lc.openPosition } ∧ field.sender = k := by
    rcases hc with hreply | ⟨rfl, hk⟩ | ⟨hother, hrequest⟩
    · simp only [List.mem_cons, List.not_mem_nil, or_false, Prod.mk.injEq] at hreply
      rcases hreply with ⟨rfl, rfl⟩ | ⟨rfl, rfl⟩ | ⟨rfl, rfl⟩ | ⟨rfl, rfl⟩
      all_goals exact ⟨congrArg _ (State.onTake_ignored ht hquiet _), rfl⟩
    · exact ⟨congrArg _ (State.onTake_ignored ht hquiet _), hk⟩
    · simp only [List.mem_cons, List.not_mem_nil, or_false, Prod.mk.injEq] at hrequest
      rcases hrequest with ⟨rfl, rfl⟩ | ⟨rfl, rfl⟩ | ⟨rfl, rfl⟩ | ⟨rfl, rfl⟩ | ⟨rfl, rfl⟩ | ⟨rfl, rfl⟩ | ⟨rfl, rfl⟩
        | ⟨rfl, rfl⟩ | ⟨rfl, rfl⟩ | ⟨rfl, rfl⟩
      all_goals exact ⟨congrArg _ (State.onRequest_ignored ht hquiet hother _ _ _), rfl⟩
  obtain ⟨hexec, rfl⟩ := hexec
  refine ⟨_, hexec, rfl, fun hown => ?_, fun hdeferred => ?_, fun p hp => ?_⟩
  · exact (LinkController.openPosition_flags _).1.trans (LinkController.endPosition_sendFlag hown)
  · have hmark : s.lc.endMark.nothingDeferred = true := (LinkController.endMark_nothingDeferred _).trans hdeferred
    rw [LinkController.openPosition_msgs]
    refine (LinkController.endPosition_msgs hmark _ _ _ _).trans ?_
    by_cases hown : s.lc.endMark.isOwnPosition s.own field = true
    · exact congrArg (List.map _) ((if_pos hown).trans (if_pos hown).symm)
    · refine (congrArg (List.map _) (if_neg hown)).trans ?_
      exact (LinkController.endMark_msgs s.lc).trans (congrArg (List.map _) (if_neg hown).symm)
  · cases p
    case lc | pt => exact absurd (by decide) hp
    all_goals rfl

/-- Settles O13, by the class of the message offered and what the queue has to displace. -/
theorem fullQueueDiscardsOrDisplaces : Obligations.FullQueueDiscardsOrDisplaces := by
  intro lc m hfull hnew
  refine ⟨fun hcls => LinkController.offer_full_discards hfull hnew (.inl hcls),
    fun _ hnone => LinkController.offer_full_discards hfull hnew (.inr (dropYoungest_none.mpr hnone)), fun hcls ⟨e, he, h3, hground⟩ => ?_,
    fun before lost behind zeros others hcls hq h3 hground hbehind hsplit hz ho => ?_⟩
  · cases hdrop : dropYoungest lc.queue with
    | none => exact absurd (dropYoungest_none.mp hdrop e he h3) (by simp [hground])
    | some q =>
      obtain ⟨before, lost, behind, hqueue, rfl, -, -⟩ := dropYoungest_some hdrop
      rw [LinkController.offer_full_displaces hfull hnew hcls hdrop]
      refine ⟨?_, _, (enterQueue_mem _ _ _).mpr (.inl rfl), rfl, rfl⟩
      simp only [enterQueue_length, hqueue, List.length_append, List.length_cons]
      omega
  · have hdrop := dropYoungest_append h3 hground hbehind before
    rw [← hq] at hdrop
    rw [LinkController.offer_full_displaces hfull hnew hcls hdrop, hsplit, enterQueue_zeros hcls hz ho]

/-- Settles O14, by whether the pending report is in flight. -/
theorem reportsCoalesce : Obligations.ReportsCoalesce := by
  intro lc before behind e m hw hq he
  have hreplaces := fun hground => LinkController.offer_replaces hw hq he hground
  have hdefers := fun hflight => LinkController.offer_defers hw hq he hflight
  obtain ⟨hqueue, hdeferred⟩ := LinkController.defer_report he lc
  refine ⟨?_, fun hground => ⟨hreplaces hground, coalesces_cls he⟩, fun hflight => ?_⟩
  · cases hf : e.inFlight with
    | false => simp [hreplaces hf, hq]
    | true => rw [hdefers hf, hqueue]
  · rw [hdefers hflight]
    exact ⟨hqueue, hdeferred⟩

end Sys2Proof.Proofs
end

section
/-! Proofs about the station modes (chapter 3): every take of ZONE SET, ZONE STATE, CLAIM and RELEASE derives the mode, and entry to STANDBY powers
down. -/

namespace Sys2Proof.Machine

theorem State.takes_joined {s : State} (h : s.takes = true) : s.joined = true := by
  simp only [State.takes, Bool.and_eq_true] at h
  exact h.1

/-- A state that a take leaves by a re-derivation of the mode, from a state with the mode, the overload counts and the tuner's channel and lists of
the take. -/
def State.Rederived (s y : State) : Prop :=
  ∃ x : State, x.joined = true ∧ x.pt.mode = s.pt.mode ∧ (∀ n : OutputNo, x.om.outputs[n].overload = s.om.outputs[n].overload)
    ∧ (x.tb.band = s.tb.band ∧ x.tb.freq = s.tb.freq ∧ ∀ b, x.tb.listAborted b = s.tb.listAborted b)
    ∧ (y = x.rederiveMode ∨ y = x.rederiveMode.evalGo)

theorem State.changeTable_rederived {s : State} (hj : s.joined = true) (change : TableChange) (own : Option Source) :
    s.Rederived (s.changeTable change own) :=
  ⟨({ s with st := change.table } : State).handFreed change.freed |>.ownTakenAt own, by simpa [State.joined, State.inReset] using hj, by simp,
    by simp, by simp, .inl rfl⟩

theorem State.handRecords_rederived {s : State} (hj : s.joined = true) (old : ZoneRecord) : s.Rederived (s.handRecords old) := by
  refine ⟨_, ?_, ?_, ?_, ?_, .inr rfl⟩
  · split <;> simpa [State.joined, State.inReset] using hj
  all_goals split <;> simp

theorem State.applyZoneSet_rederived {s : State} (hj : s.joined = true) (f : ZoneSetFields) : s.Rederived (s.applyZoneSet f) := by
  let marked : State := { s with zt := s.zt.applySet f (s.pt.mode == .joining && !s.pt.joinFlag) }
  let moved := marked.moveHolder f.zone (s.zt.records[f.zone]).program (marked.zt.records[f.zone]).program
  have hmoved : moved.joined = true := by simpa [moved, marked, State.joined, State.inReset] using hj
  obtain ⟨hband, hfreq, -, hlists⟩ := marked.moveHolder_tb f.zone (s.zt.records[f.zone]).program (marked.zt.records[f.zone]).program
  obtain ⟨x, hx, hmode, hload, ⟨hxband, hxfreq, hxlists⟩, hy⟩ := State.handRecords_rederived hmoved s.ownRecord
  exact ⟨x, hx, hmode.trans (by simp [moved, marked]), fun n => (hload n).trans (by simp [moved, marked]),
    ⟨hxband.trans hband, hxfreq.trans hfreq, fun b => (hxlists b).trans (hlists b)⟩, hy⟩

/-- Every take that the modes follow ends in a re-derivation. -/
theorem exec_rederives {c : Instr} {s : State} (hc : movesMode c = true) (ht : s.takes = true) (hm : s.pt.mode ≠ .joining) :
    ∃ y, exec c s = .next y.closePosition ∧ s.Rederived y := by
  have hj : ∀ f, (s.endMark.takeMessage f).joined = true := fun f => State.takes_joined ht
  have hrederives : ∀ f, s.Rederived (s.endMark.takeMessage f).rederiveMode := fun f =>
    ⟨_, hj f, rfl, fun _ => rfl, ⟨rfl, rfl, fun _ => rfl⟩, .inl rfl⟩
  cases c
  case claim k p => exact ⟨_, congrArg Host.Outcome.next (State.onTake_takes ht _ _), State.changeTable_rederived (hj _) _ _⟩
  case release k p => exact ⟨_, congrArg Host.Outcome.next (State.onTake_takes ht _ _), State.changeTable_rederived (hj _) _ _⟩
  case zoneSet k p =>
    refine ⟨_, congrArg Host.Outcome.next (State.onTake_takes ht _ _), ?_⟩
    split
    · exact State.applyZoneSet_rederived (hj _) _
    · exact hrederives _
  case zoneState k p =>
    refine ⟨_, congrArg Host.Outcome.next (State.onTake_takes ht _ _), ?_⟩
    split
    next hjoining _ => exact absurd hjoining hm
    next => exact hrederives _
  all_goals cases hc

/-- The mode that a re-derivation leaves is the one that the tables call for. -/
theorem State.Rederived.mode {s y : State} (h : s.Rederived y) (hm : s.pt.mode ≠ .joining) : y.pt.mode = y.derivedMode := by
  obtain ⟨x, hx, hmode, -, -, hy⟩ := h
  have hderived := State.rederiveMode_mode hx (hmode ▸ hm)
  rcases hy with rfl | rfl
  · exact hderived.trans (State.derivedMode_congr (by simp) (by simp) (by simp)).symm
  · exact (by simpa using hderived : x.rederiveMode.evalGo.pt.mode = x.derivedMode).trans
      (State.derivedMode_congr (by simp) (by simp) (by simp)).symm

/-- The go condition leaves every output of a station that sleeps OFF. -/
theorem State.evalGo_asleep {s t : State} (h : Asleep s t) : Asleep s t.evalGo where
  outs n := by
    rw [State.evalGo_off t n (h.outs n).1]
    exact h.outs n
  flt n := by simpa using h.flt n
  ia := by simpa using h.ia
  ib := by simpa using h.ib
  pd := by simpa using h.pd
  tb := by simpa using h.tb
  rt := by simpa using h.rt

theorem State.Rederived.asleep {s y : State} (h : s.Rederived y) (hjoining : s.pt.mode ≠ .joining) (hstandby : s.pt.mode ≠ .standby)
    (hy : y.pt.mode = .standby) : Asleep s y := by
  obtain ⟨x, hx, hmode, hload, htuner, heq⟩ := h
  have hmoded : x.rederiveMode.pt.mode = .standby := by rcases heq with rfl | rfl <;> simpa using hy
  have hasleep : Asleep s x.rederiveMode :=
    (State.rederiveMode_asleep x hx (hmode ▸ hjoining) (hmode ▸ hstandby) hmoded).of hload htuner rfl rfl rfl rfl rfl rfl
  rcases heq with rfl | rfl
  · exact hasleep
  · exact State.evalGo_asleep hasleep

end Sys2Proof.Machine

namespace Sys2Proof.Proofs

open Sys2Proof.Machine

/-- Settles O18: the offers that close the position leave the tables and the mode. -/
theorem modeFollowsTheTables : Obligations.ModeFollowsTheTables := by
  intro c s hc ht hm
  obtain ⟨y, hexec, hy⟩ := exec_rederives hc ht hm
  refine ⟨_, hexec, (hy.mode hm).trans ?_⟩
  have hclosed : y.closePosition.derivedMode = y.derivedMode := State.derivedMode_congr rfl rfl rfl
  rw [← hclosed]
  simp [State.derivedMode, State.anyDemand]

/-- Settles O19, by the entry to STANDBY that the re-derivation of the take makes. -/
theorem standbyPowersDown : Obligations.StandbyPowersDown := by
  intro c s hc ht hjoining hstandby
  obtain ⟨y, hexec, hy⟩ := exec_rederives hc ht hjoining
  refine ⟨_, hexec, fun hmode => ?_⟩
  obtain ⟨houts, hfault, ha, hb, hdecoder, ⟨hoff, hop, hband, hfreq, hlists⟩, htimer, hsender⟩ := hy.asleep hjoining hstandby hmode
  refine ⟨fun n => ?_, ha, hb, hdecoder, hoff, hop, hband, hfreq, fun b => ?_, htimer, hsender⟩
  · obtain ⟨hstate, henabled, hramp, hrecovery, hload⟩ := houts n
    exact ⟨hstate, henabled, hramp, hrecovery, hload, hfault n⟩
  · have hlist : y.closePosition.tb.list b = s.tb.listAborted b := hlists b
    rw [hlist]
    exact ⟨rfl, rfl⟩

end Sys2Proof.Proofs
end

section
/-! Proofs about peers (chapter 3): the entries that a PRESENCE and an absence leave, and the answer to a joining PRESENCE. -/

namespace Sys2Proof.Machine

/-! ## The take of a PRESENCE (R35, R36) -/

/-- The state in which the owner of a PRESENCE acts. -/
def State.presenceTaken (s : State) (k : Station) : State :=
  (s.endMark.takeMessage ⟨4, k⟩).clearJoinFlag (s.endMark.ownJoiningTaken k)

theorem exec_presence {s : State} (h : s.takes = true) (k : Station) (p : List Byte) :
    exec (.presence k p) s =
      .next (((s.presenceTaken k).refreshEntry k (presenceFields p)).answerJoin k (joiningFlag p)).closePosition :=
  congrArg Host.Outcome.next (State.onTake_takes h _ _)

theorem State.presenceTaken_entries (s : State) (k : Station) : (s.presenceTaken k).pt.entries = hearFrom s.pt.entries k := rfl

theorem State.refreshEntry_entries (s : State) (k : Station) (content : Option PresenceContent) :
    (s.refreshEntry k content).pt.entries =
      match content with
      | some c => s.pt.entries.set k (some c.entry)
      | none => s.pt.entries := by
  cases content with
  | none => rfl
  | some c => simp [State.refreshEntry]

/-- The holders after an entry is refreshed are those that the table gives (R84). -/
theorem State.refreshEntry_holder (s : State) (k : Station) (c : PresenceContent) (role : Role) :
    (s.refreshEntry k (some c)).zt.holder role = holderOf (s.pt.entries.set k (some c.entry)) s.ownZone role := by
  refine (ZoneTable.holder_derived { s with pt := { s.pt with entries := s.pt.entries.set k (some c.entry) } } role _ ?_)
  simp only [State.refreshEntry, State.evalGo_frame, State.deriveRoles_holders]

/-! ## An absence (R36, R37) -/

/-- The state that the absence of a station leaves of the peer table, the zone table and the go condition. -/
def State.withoutPeer (s : State) (k : Station) : State :=
  { s with pt := { s.pt with entries := s.pt.entries.set k none } }.deriveRoles.evalGo

theorem exec_peerAbsence {s : State} (hj : s.joined = true) {k : Station} {e : PeerEntry}
    (he : s.pt.entries[k] = some e)
    (hcount : 191 ≤ e.silence) : exec (.peerAbsence k) s = .next (s.atRoundBegin fun x => x.withoutPeer k).closeEvent := by
  have hexpires : (s.joined && s.pt.entries[k].any (191 ≤ ·.silence)) = true := by simp [hj, he, hcount]
  exact congrArg Host.Outcome.next (if_pos hexpires)

theorem State.withoutPeer_holder (s : State) (k : Station) (role : Role) :
    (s.withoutPeer k).zt.holder role = holderOf (s.pt.entries.set k none) s.ownZone role := by
  refine (ZoneTable.holder_derived { s with pt := { s.pt with entries := s.pt.entries.set k none } } role _ ?_)
  simp only [State.withoutPeer, State.evalGo_frame, State.deriveRoles_holders]

/-! ## The answer to a joining PRESENCE (R189) -/

/-- A taken PRESENCE leaves the entries of the other stations as far as they qualify to answer. -/
theorem State.presenceTaken_qualifies (s : State) {j k : Station} (hk : k ≠ j) (content : Option PresenceContent) :
    ((s.presenceTaken j).refreshEntry j content).qualifies k = s.qualifies k := by
  have hne : ¬j.val = k.val := fun h => hk (Fin.ext h.symm)
  have hentry : ((s.presenceTaken j).refreshEntry j content).pt.entries[k] = s.pt.entries[k] := by
    rw [State.refreshEntry_entries, State.presenceTaken_entries]
    cases content <;> simp [hearFrom, hne]
  simp only [State.qualifies, hentry]

theorem State.answersJoin_iff (s : State) (j : Station) :
    s.answersJoin j = true ↔ s.own ≠ j ∧ s.pt.mode ≠ .joining ∧ s.qualifies s.own = true ∧ ∀ k, k < s.own → k ≠ j → s.qualifies k = false := by
  have hpresent : s.qualifies s.own = true → s.pt.entries[s.own].isSome = true := fun h => by
    obtain ⟨e, he, -⟩ := (Option.any_eq_true _ _).mp h
    simp [he]
  simp only [State.answersJoin, Bool.and_eq_true, bne_iff_ne, beq_iff_eq, find_finRange, Bool.and_eq_false_imp]
  constructor
  · rintro ⟨⟨⟨hown, hmode⟩, -⟩, ⟨-, hq⟩, hlower⟩
    exact ⟨hown, hmode, hq, fun k hk hj => hlower k hk hj⟩
  · rintro ⟨hown, hmode, hq, hlower⟩
    exact ⟨⟨⟨hown, hmode⟩, hpresent hq⟩, ⟨hown, hq⟩, fun k hk hj => hlower k hk hj⟩

/-- The answer to a joining PRESENCE in a queue with room and without another ZONE STATE. -/
theorem State.answerJoin_zoneState {s : State} (hroom : s.lc.queue.length < 8) (hnone : ∀ e ∈ s.lc.queue, ∀ v, e.msg ≠ .zoneState v)
    (j : Station) (v : Vector ZoneRecord 4) :
    (s.answerJoin j true).queued (.zoneState v) ↔ s.answersJoin j = true ∧ v = s.zt.records := by
  have hbefore : ¬s.queued (.zoneState v) := fun ⟨e, he, hv⟩ => hnone e he v hv
  have hnew : s.lc.queue.any (fun e => coalesces e.msg (.zoneState s.zt.records)) = false := by
    simp only [List.any_eq_false, Bool.not_eq_true]
    exact fun e _ => coalesces_false rfl rfl
  cases hanswers : s.answersJoin j with
  | false => simpa [State.answerJoin, State.queued, hanswers] using hbefore
  | true =>
    simp only [State.queued, State.answerJoin, hanswers, Bool.and_self, if_true, LinkController.offer_enters _ _ hroom hnew, enterQueue_mem,
      true_and]
    constructor
    · rintro ⟨e, rfl | he, hv⟩
      · exact (Msg.zoneState.inj hv).symm
      · exact absurd ⟨e, he, hv⟩ hbefore
    · rintro rfl
      exact ⟨_, .inl rfl, rfl⟩

end Sys2Proof.Machine

namespace Sys2Proof.Proofs

open Sys2Proof.Machine

/-- Settles O16, by the content of the PRESENCE, and by the entry that an absence removes. -/
theorem peersEnterAndLeave : Obligations.PeersEnterAndLeave := by
  intro k s
  refine ⟨fun p ht => ?_, fun e hj he hcount => ?_⟩
  · refine ⟨_, exec_presence ht k p, ?_, by simp [State.presenceTaken], by simp [State.presenceTaken], ?_, fun q hq => ?_⟩
    · cases presenceFields p with
      | none => exact ⟨rfl, rfl, rfl, rfl⟩
      | some c =>
        have hentries : ((s.presenceTaken k).refreshEntry k (some c)).pt.entries = s.pt.entries.set k (some c.entry) := by
          rw [State.refreshEntry_entries, State.presenceTaken_entries]
          simp [hearFrom]
        refine ⟨hentries, fun role => ((s.presenceTaken k).refreshEntry_holder k c role).trans ?_⟩
        exact congrArg (fun entries => holderOf entries s.ownZone role)
          (((s.presenceTaken k).refreshEntry_entries k (some c)).symm)
    · exact ((s.presenceTaken k).refreshEntry_peers k (presenceFields p)).1
    · cases q
      case lc | pt | zt | mm | om | cr => exact absurd (by decide) hq
      all_goals simp [State.same, State.presenceTaken]
  · obtain ⟨before, after, heq⟩ := s.atRoundBegin_eq fun x => x.withoutPeer k
    refine ⟨_, exec_peerAbsence hj he hcount, ?_⟩
    rw [heq]
    refine ⟨by simp [State.withoutPeer], fun role => ?_, by simp [State.withoutPeer], by simp [State.withoutPeer],
      by simp [State.withoutPeer], fun q hq => ?_⟩
    · refine (({ s with mm := before } : State).withoutPeer_holder k role).trans ?_
      simp [State.withoutPeer, State.ownZone]
    · cases q
      case lc | pt | zt | mm | om | cr => exact absurd (by decide) hq
      all_goals simp [State.same, State.withoutPeer]

/-- Settles O17, by the station that answers and the queue that the offer enters. -/
theorem joiningPresenceIsAnswered : Obligations.JoiningPresenceIsAnswered := by
  intro j p s ht hflag hroom hnone
  let x := (s.presenceTaken j).refreshEntry j (presenceFields p)
  have hlc : x.lc = (s.endMark.takeMessage ⟨4, j⟩).lc := by simp [x, State.presenceTaken]
  have hroomed : x.lc.queue.length < 8 := hlc ▸ State.takeMessage_room hroom
  have hnoneLeft : ∀ e ∈ x.lc.queue, ∀ v, e.msg ≠ .zoneState v := by
    rw [hlc]
    refine LinkController.endPosition_noZoneState fun e he v => ?_
    exact (LinkController.endMark_mem fun m => ∀ v, m ≠ .zoneState v).mpr hnone e he v
  have hanswer : ∀ v, (x.answerJoin j true).closePosition.queued (.zoneState v) ↔ x.answersJoin j = true ∧ v = x.zt.records := fun v =>
    (State.closePosition_zoneState _ v).trans (State.answerJoin_zoneState hroomed hnoneLeft j v)
  have hrecords : x.zt.records = s.zt.records := by simp [x, State.presenceTaken]
  have hown : x.own = s.own := by simp [x, State.presenceTaken, State.own]
  have hmode : x.pt.mode = s.pt.mode := (State.refreshEntry_peers _ _ _).1
  refine ⟨_, by rw [exec_presence ht j p, hflag], ?_, fun v hv => ((hanswer v).mp hv).2.trans hrecords⟩
  have hqualifies : ∀ k, k ≠ j → x.qualifies k = s.qualifies k := fun k hk => s.presenceTaken_qualifies hk _
  calc (∃ v, (x.answerJoin j true).closePosition.queued (.zoneState v))
    _ ↔ x.answersJoin j = true := by simp [hanswer]
    _ ↔ _ := State.answersJoin_iff x j
    _ ↔ _ := by
      rw [hown, hmode]
      refine and_congr_right fun hj => and_congr_right fun _ => ?_
      rw [hqualifies s.own hj]
      exact and_congr_right fun _ => forall_congr' fun k => forall_congr' fun _ => forall_congr' fun hk => by rw [hqualifies k hk]

end Sys2Proof.Proofs
end

section
/-! Proofs about slots and streams (chapter 4): the take of a CLAIM, the judgement of a slot, and the settling of a publication record. -/

namespace Sys2Proof.Machine

/-! ## The take of a CLAIM (R50) -/

/-- The state that the take of a CLAIM leaves before its position closes. -/
def State.claimed (s : State) (sender : Station) (payload : List Byte) : State :=
  (s.endMark.takeMessage ⟨0, sender⟩).changeTable (takeClaim s.st sender (claimFields payload)) (s.endMark.ownClass0 sender)

theorem exec_claim {s : State} (h : s.takes = true) (sender : Station) (payload : List Byte) :
    exec (.claim sender payload) s = .next (s.claimed sender payload).closePosition :=
  congrArg Host.Outcome.next (State.onTake_takes h _ _)

theorem claimAccepted_iff (st : SlotTable) (sender : Station) (stream : Stream) (kind : Kind) (start : SlotNo) :
    claimAccepted st sender (some (stream, kind, start)) = true ↔
      stream.station = sender ∧ start.val + widthOf kind ≤ 24
        ∧ (∀ j : Fin 24, inRun kind start.val j.val = true → (st[j]).all (·.stream == stream) = true)
        ∧ SlotTable.allows st sender (· == stream) kind = true := by
  simp only [claimAccepted, Bool.and_eq_true, beq_iff_eq]
  refine and_congr_right fun hsender => ?_
  subst hsender
  exact placementFits_iff st stream kind start

theorem takeClaim_accepted {st : SlotTable} {sender : Station} {stream : Stream} {kind : Kind} {start : SlotNo}
    (h : claimAccepted st sender (some (stream, kind, start)) = true) :
    (takeClaim st sender (some (stream, kind, start))).table = placeRun (freeRuns st (· == stream)) stream kind start := by
  simp only [takeClaim, h, if_true]

theorem takeClaim_refused {st : SlotTable} {sender : Station} {stream : Stream} {kind : Kind} {start : SlotNo}
    (h : claimAccepted st sender (some (stream, kind, start)) = false) : (takeClaim st sender (some (stream, kind, start))).table = st := by
  simp only [takeClaim, h, Bool.false_eq_true, if_false]

/-! ## The judgement of a slot (R55, R56) -/

/-- A header agrees with an entry where its stream, its kind and its place in the run are the entry's (R55). -/
theorem headerAgrees_eq {slot : SlotNo} {h : SlotHeader} (hpart : h.part ≤ slot.val) (e : SlotEntry) :
    headerAgrees slot h e = (e.stream == h.stream && e.kind == h.kind && e.start.val + h.part == slot.val) := by
  have hstart : (e.start == impliedStart slot h) = (e.start.val + h.part == slot.val) := by
    rw [Bool.eq_iff_iff, beq_iff_eq, beq_iff_eq, Fin.ext_iff]
    simp only [impliedStart]
    omega
  rw [headerAgrees, hstart]

/-- What a correction leaves of the table, or what the slot leaves where the limit forbids one. -/
theorem correctTable_getElem (st : SlotTable) (slot : SlotNo) (h : SlotHeader) (other : TableChange) (i : Fin 24) :
    ((correctTable st slot h).getD other).table[i] =
      if SlotTable.allows st h.stream.station (freedByCorrection st slot h) h.kind = true then
        SlotTable.placed st (freedByCorrection st slot h) h.stream h.kind (impliedStart slot h) i
      else other.table[i] := by
  by_cases hlimit : heldOutside st h.stream.station (freedByCorrection st slot h) + widthOf h.kind ≤ 8
  · rw [correctTable, if_pos hlimit, if_pos (by simpa [SlotTable.allows] using hlimit)]
    exact placeRun_getElem _ _ _ _ _ _
  · rw [correctTable, if_neg hlimit, if_neg (by simpa [SlotTable.allows] using hlimit)]
    rfl

/-- The table after a slot with a valid header, entry by entry. -/
theorem judgeSlot_getElem (st : SlotTable) {slot : SlotNo} {h : SlotHeader} (hpart : h.part ≤ slot.val) (i : Fin 24) :
    (judgeSlot st slot (some h)).table[i] =
      if (st[slot]).any (fun e => e.stream == h.stream && e.kind == h.kind && e.start.val + h.part == slot.val) = true then
        if i = slot then (st[slot]).map (fun e => { e with silence := 0 }) else st[i]
      else if SlotTable.allows st h.stream.station (freedByCorrection st slot h) h.kind = true then
        SlotTable.placed st (freedByCorrection st slot h) h.stream h.kind (impliedStart slot h) i
      else SlotTable.silent st slot i := by
  cases hslot : st[slot] with
  | none =>
    have hsilent : st[i] = SlotTable.silent st slot i := by simp only [SlotTable.silent, hslot]
    simp only [judgeSlot, hslot, Option.any_none, Bool.false_eq_true, if_false, ← hsilent]
    exact correctTable_getElem st slot h { table := st, freed := [] } i
  | some e =>
    simp only [judgeSlot, hslot, headerAgrees_eq hpart, Option.any_some, Option.map_some]
    split
    · by_cases hi : i = slot
      · subst hi
        simp
      · have hne : ¬slot.val = i.val := fun hv => hi (Fin.ext hv.symm)
        simp [hi, hne]
    · rw [← countSilence_getElem]
      exact correctTable_getElem st slot h (countSilence st slot) i

theorem exec_slotExpiry {s : State} (ht : s.takes = true) {slot : SlotNo} {e : SlotEntry} (he : s.st[slot] = some e) (hcount : 7 ≤ e.silence) :
    exec (.slotExpiry slot) s = .next (s.judge slot none).closeEvent := by
  have hexpires : (s.takes && s.st[slot].any (7 ≤ ·.silence)) = true := by simp [ht, he, hcount]
  exact congrArg Host.Outcome.next (if_pos hexpires)

theorem State.judge_st (s : State) (slot : SlotNo) (header : Option SlotHeader) : (s.judge slot header).st = (judgeSlot s.st slot header).table := by
  simp [State.judge]

/-! ## Settling (R59) -/

theorem State.settle_eq {s : State} {src : Source} (hp : s.publishes src = true) (ho : (s.sp.get src).outstanding = .none) :
    s.settle src = { s with
      sp := s.sp.set src { s.sp.get src with
        state := (s.settlement src false).state
        outstanding := outstandingOf (s.settlement src false).offer
        heldBack := (s.settlement src false).offer.any s.lc.handsBack }
      lc := s.lc.offerMaybe (s.settlement src false).offer
      cr := s.cr.put (.streamNoSlot src) ((s.settlement src false).state == .noSlot) } := by
  have hsettles : (s.publishes src && (s.sp.get src).outstanding == .none) = true := by simp [hp, ho]
  simp only [State.settle, hsettles, if_true]

/-- What settling leaves of the record, the queue and the condition. -/
theorem State.settle_settles {s : State} {src : Source} (hp : s.publishes src = true) (ho : (s.sp.get src).outstanding = .none) :
    ((s.settle src).sp.get src).state = (s.settlement src false).state
      ∧ ((s.settle src).sp.get src).outstanding = outstandingOf (s.settlement src false).offer
      ∧ (s.settle src).lc = s.lc.offerMaybe (s.settlement src false).offer
      ∧ (s.settle src).cr.holds (.streamNoSlot src) = ((s.settlement src false).state == .noSlot) := by
  rw [State.settle_eq hp ho]
  exact ⟨by rw [Publisher.get_set], by rw [Publisher.get_set], rfl, Conditions.put_holds _ _ _⟩

theorem firstFit_some {st : SlotTable} {stream : Stream} {kind : Kind} {start : SlotNo} :
    firstFit st stream kind = some start ↔
      placementFits st stream kind start = true ∧ ∀ lower, lower < start → placementFits st stream kind lower = false :=
  find_finRange _ _

theorem firstFit_none {st : SlotTable} {stream : Stream} {kind : Kind} (h : ∀ start, placementFits st stream kind start = false) :
    firstFit st stream kind = none := by
  simp [firstFit, h]

end Sys2Proof.Machine

namespace Sys2Proof.Proofs

open Sys2Proof.Machine

/-- Settles O20, by the fields of the CLAIM and the test that they pass. -/
theorem claimsAreTested : Obligations.ClaimsAreTested := by
  intro k p s ht
  refine ⟨_, exec_claim ht k p, ?_, fun e he => ?_, fun q hq => ?_⟩
  · have hst : (s.claimed k p).closePosition.st = (takeClaim s.st k (claimFields p)).table := State.changeTable_st _ _ _
    rw [hst]
    cases claimFields p with
    | none => rfl
    | some fields =>
      obtain ⟨stream, kind, start⟩ := fields
      intro i
      by_cases hfits : claimAccepted s.st k (some (stream, kind, start)) = true
      · rw [takeClaim_accepted hfits, if_pos ((claimAccepted_iff _ _ _ _ _).mp hfits)]
        exact placeRun_getElem _ _ _ _ _ _
      · rw [takeClaim_refused (by simpa using hfits), if_neg fun hc => hfits ((claimAccepted_iff _ _ _ _ _).mpr hc)]
  · have hentries : (s.claimed k p).closePosition.pt.entries = (s.endMark.takeMessage ⟨0, k⟩).pt.entries := State.changeTable_peers _ _ _
    rw [hentries] at he
    exact State.takeMessage_heard s.endMark ⟨0, k⟩ e he
  · cases q
    case zt | sm | cl | rc | pins | draws | pending => simp [State.same, State.claimed]
    all_goals exact absurd (by decide) hq

/-- Settles O22, by the header of the slot; an expiry is the judgement of a slot without one. -/
theorem slotsAreJudged : Obligations.SlotsAreJudged := by
  intro slot s ht
  refine ⟨fun heard => ⟨_, exec_slotEnd ht slot heard, fun i => ?_, fun q hq => ?_⟩, fun e he hcount =>
    ⟨_, exec_slotExpiry ht he hcount, fun i => ?_, fun q hq => ?_⟩⟩
  · have hst : (s.slotEnds slot heard).closeEvent.st
        = (judgeSlot s.st slot ((validHeader s.rt.roundNumber slot heard).map (·.1))).table := s.slotEnds_st slot heard
    rw [hst]
    cases hv : validHeader s.rt.roundNumber slot heard with
    | none => exact countSilence_getElem s.st slot i
    | some x =>
      obtain ⟨hpart, -, -⟩ := readSlot_part (validHeader_read hv)
      exact judgeSlot_getElem s.st hpart i
  · cases q
    case zt | sm | cl | rc | pins | pending => simp [State.same]
    all_goals exact absurd (by decide) hq
  · have hst : (s.judge slot none).closeEvent.st = (countSilence s.st slot).table := s.judge_st slot none
    rw [hst, countSilence_getElem]
    simp only [SlotTable.silent, he, hcount, if_true]
  · cases q
    case zt | sm | cl | rc | pins | draws | pending => simp [State.same]
    all_goals exact absurd (by decide) hq

/-- Settles O26, by the demand and the run of the stream. -/
theorem recordsSettle : Obligations.RecordsSettle := by
  intro src s hp ho
  obtain ⟨hstate, hout, hlc, hcond⟩ := State.settle_settles hp ho
  refine ⟨hcond.trans (by rw [hstate]), ?_⟩
  rw [hstate, hout, hlc]
  cases hd : s.demanded src with
  | false => cases hr : runOf s.st (s.ownStream src) <;> simp [State.settlement, hd, hr, LinkController.offerMaybe, outstandingOf]
  | true =>
    cases hr : runOf s.st (s.ownStream src) with
    | some e => by_cases hk : e.kind = (s.sp.get src).wanted <;> simp [State.settlement, hd, hr, hk, LinkController.offerMaybe, outstandingOf]
    | none =>
      refine ⟨fun start hfits hlower => ?_, fun hnone => ?_⟩
      · have hfirst := firstFit_some.mpr ⟨hfits, hlower⟩
        simp [State.settlement, hd, hr, hfirst, LinkController.offerMaybe, outstandingOf]
      · simp [State.settlement, hd, hr, firstFit_none hnone, LinkController.offerMaybe]

end Sys2Proof.Proofs
end

section
/-! Proofs about the receiver at a change of mode: a mode that leaves some output sounding leaves a held target, and entry to STANDBY releases it
(R45, R72). -/

namespace Sys2Proof.Machine

theorem State.switchTo_sr (s : State) (p : Option Stream) : (s.switchTo p).sr = Receiver.switched p := by simp [State.switchTo]

/-- A switch clears PROGRAM_LOST (R71). -/
theorem State.switchTo_programLost (s : State) (p : Option Stream) : (s.switchTo p).cr.holds .programLost = false := by
  simp only [State.switchTo, State.rebuild_frame, State.checkDecoder_holds _ .programLost (by simp), State.setCondition]
  exact Conditions.put_holds _ _ _

theorem State.sounding_iff (s : State) : s.sounding = true ↔ ∃ n : OutputNo, s.om.outputs[n].state.sounding = true := by
  simp only [State.sounding, List.any_eq_true, Vector.mem_toList_iff, Vector.mem_iff_getElem]
  constructor
  · rintro ⟨o, ⟨i, hi, rfl⟩, ho⟩
    exact ⟨⟨i, hi⟩, ho⟩
  · rintro ⟨n, hn⟩
    exact ⟨_, ⟨n.val, n.isLt, rfl⟩, hn⟩

theorem State.not_sounding_of_off {s : State} (h : ∀ n : OutputNo, s.om.outputs[n].state = .off) : s.sounding = false :=
  Bool.eq_false_iff.mpr fun hs => by
    obtain ⟨n, hn⟩ := s.sounding_iff.mp hs
    rw [h n] at hn
    cases hn

/-! ## Outputs that sound (R131) -/

/-- Every output that sounds in one state sounds in another. -/
def State.KeepsSounding (s t : State) : Prop :=
  ∀ n : OutputNo, s.om.outputs[n].state.sounding = true → t.om.outputs[n].state.sounding = true

theorem State.KeepsSounding.trans {s t u : State} (h : s.KeepsSounding t) (k : t.KeepsSounding u) : s.KeepsSounding u :=
  fun n hn => k n (h n hn)

theorem State.keepsSounding_of_om {s t : State} (h : t.om = s.om) : s.KeepsSounding t := fun _ hn => h ▸ hn

theorem OutputRecord.evaluate_sounding {o : OutputRecord} (h : o.state.sounding = true) (start continues : Bool) :
    (o.evaluate start continues).state.sounding = true := by
  cases hs : o.state with
  | rampUp | playing => cases continues <;> simp [OutputRecord.evaluate, hs, OutState.sounding]
  | rampDown => cases start <;> simp [OutputRecord.evaluate, hs, OutState.sounding]
  | silent | off | faulted | retired => rw [hs] at h; cases h

theorem State.evalGo_sounding (s : State) : s.KeepsSounding s.evalGo := fun n hn => by
  rw [State.evalGo, State.mapOutputs_outputs]
  exact OutputRecord.evaluate_sounding hn _ _

/-- A write of an output that does not sound leaves the others. -/
theorem State.setOutput_sounding {s : State} {n : OutputNo} (h : s.om.outputs[n].state.sounding = false) (o : OutputRecord) :
    s.KeepsSounding (s.setOutput n o) := fun j hj => by
  rw [State.setOutput_outputs]
  split
  next heq =>
    subst heq
    exact absurd (h.symm.trans hj) Bool.false_ne_true
  next => exact hj

theorem State.countFaultIf_sounding {s : State} {n : OutputNo} (h : s.om.outputs[n].state.sounding = false) (b : Bool) :
    s.KeepsSounding (s.countFaultIf n b) := by
  cases b with
  | false => exact fun _ hn => hn
  | true =>
    refine (State.setOutput_sounding h (s.om.outputs[n]).fault).trans (State.keepsSounding_of_om ?_)
    simp [State.countFaultIf, State.countFault]

theorem State.activateOutput_sounding (s : State) (n : OutputNo) : s.KeepsSounding (s.activateOutput n) := by
  simp only [State.activateOutput]
  split
  next hoff =>
    have hquiet : s.om.outputs[n].state.sounding = false := by
      rw [beq_iff_eq.mp hoff]
      rfl
    split
    · exact (State.setOutput_sounding hquiet _).trans (State.keepsSounding_of_om rfl)
    · refine (State.setOutput_sounding hquiet _).trans (State.countFaultIf_sounding ?_ _)
      rw [State.setOutput_outputs, if_pos rfl]
      rfl
  next => exact fun _ hn => hn

theorem State.quietOutput_sounding (s : State) (n : OutputNo) : s.KeepsSounding (s.quietOutput n) := by
  simp only [State.quietOutput]
  split
  next hsilent =>
    refine State.setOutput_sounding ?_ _
    rw [beq_iff_eq.mp hsilent]
    rfl
  next => exact fun _ hn => hn

theorem State.eachOutput_sounding {s : State} {f : State → OutputNo → State} (hf : ∀ x n, State.KeepsSounding x (f x n)) :
    s.KeepsSounding (s.eachOutput f) :=
  State.eachOutput_keeps (P := s.KeepsSounding) (fun _ hn => hn) fun x n hx => hx.trans (hf x n)

/-! ## The receiver at entry to a mode -/

/-- The receiver follows a change of mode: it stands, with every output that sounded sounding, or every output is OFF and a held target is switched
to. -/
def State.FollowsMode (s t : State) : Prop :=
  (t.sr = s.sr ∧ s.KeepsSounding t)
    ∨ (∀ n : OutputNo, t.om.outputs[n].state = .off)
      ∧ ((s.sr.target = none ∧ t.sr = s.sr) ∨ ∃ p, s.sr.target = some p ∧ t.sr = Receiver.switched p ∧ t.cr.holds .programLost = false)

theorem State.FollowsMode.refl (s : State) : s.FollowsMode s := .inl ⟨rfl, fun _ hn => hn⟩

theorem State.switchIfDown_off_sr {s : State} (h : s.sounding = false) :
    (s.sr.target = none ∧ s.switchIfDown = s) ∨ ∃ p, s.sr.target = some p ∧ s.switchIfDown = s.switchTo p := by
  simp only [State.switchIfDown, h]
  cases s.sr.target with
  | none => exact .inl ⟨rfl, rfl⟩
  | some p => exact .inr ⟨p, rfl, rfl⟩

theorem State.wake_keeps (s : State) (old : Mode) :
    (if (old == .standby) = true then s.wake else s).sr = s.sr ∧ (if (old == .standby) = true then s.wake else s).om = s.om := by
  split
  · simp [State.wake]
  · exact ⟨rfl, rfl⟩

/-- A release with every output OFF, which a following evaluation of the go condition leaves OFF. -/
theorem State.switchIfDown_follows {s x : State} (hoff : ∀ n : OutputNo, x.switchIfDown.evalGo.om.outputs[n].state = .off) (hsr : x.sr = s.sr) :
    s.FollowsMode x.switchIfDown.evalGo := by
  have hdown : x.sounding = false := Bool.eq_false_iff.mpr fun hs => by
    obtain ⟨n, hn⟩ := x.sounding_iff.mp hs
    have hsounds := State.evalGo_sounding x.switchIfDown n (State.keepsSounding_of_om (by simp) n hn)
    rw [hoff n] at hsounds
    cases hsounds
  refine .inr ⟨hoff, ?_⟩
  rcases State.switchIfDown_off_sr hdown with ⟨hnone, heq⟩ | ⟨p, hp, heq⟩
  · exact .inl ⟨hsr ▸ hnone, by simp [heq, hsr]⟩
  · exact .inr ⟨p, hsr ▸ hp, by simp [heq, State.switchTo_sr], by simp [heq, State.switchTo_programLost]⟩

theorem State.enterMode_follows (s : State) (old : Mode) : s.FollowsMode (s.enterMode old) := by
  obtain ⟨hsr, hom⟩ := s.wake_keeps old
  cases hm : s.pt.mode with
  | joining =>
    simp only [State.enterMode, hm]
    exact .refl s
  | active =>
    simp only [State.enterMode, hm]
    refine .inl ⟨by simpa [State.eachOutput] using hsr, (State.keepsSounding_of_om hom).trans ?_⟩
    exact ((State.eachOutput_sounding State.activateOutput_sounding).trans (State.keepsSounding_of_om (by simp))).trans
      (State.evalGo_sounding _)
  | serving =>
    simp only [State.enterMode, hm]
    refine .inl ⟨by simpa [State.eachOutput] using hsr, (State.keepsSounding_of_om hom).trans ?_⟩
    exact ((State.eachOutput_sounding State.quietOutput_sounding).trans (State.keepsSounding_of_om (by simp))).trans
      (State.evalGo_sounding _)
  | standby =>
    have hoff : ∀ n : OutputNo, (s.enterMode old).om.outputs[n].state = .off := fun n => ((State.enterMode_asleep s old hm).outs n).1
    simp only [State.enterMode, hm] at hoff ⊢
    exact State.switchIfDown_follows hoff (by simp [State.eachOutput, State.unpowerInput])

theorem State.changeMode_follows (s : State) (m : Mode) : s.FollowsMode (s.changeMode m) := by
  simp only [State.changeMode]
  split
  · exact .refl s
  · exact State.enterMode_follows _ _

theorem State.rederiveMode_follows (s : State) : s.FollowsMode s.rederiveMode := by
  simp only [State.rederiveMode]
  split
  · exact State.changeMode_follows s _
  · exact .refl s

/-- The go condition starts no output of a station that sleeps, and stops none that sounds at once. -/
theorem State.FollowsMode.evalGo {s t : State} (h : s.FollowsMode t) : s.FollowsMode t.evalGo := by
  rcases h with ⟨hsr, hsounding⟩ | ⟨hoff, hreceiver⟩
  · exact .inl ⟨hsr, hsounding.trans (State.evalGo_sounding t)⟩
  · refine .inr ⟨fun n => ?_, hreceiver⟩
    rw [State.evalGo_off t n (hoff n)]
    exact hoff n

end Sys2Proof.Machine
end

section
/-! Proofs about slots and streams (chapter 4), continued: the bytes that a station sends, and the ring. -/

namespace Sys2Proof.Machine

/-! ## The slot sent is kept by the hand-offs of a judgement (R65) -/

theorem State.followKind_sentSlot (s : State) (src : Source) (kind : Kind) : (s.followKind src kind).sp.sentSlot = s.sp.sentSlot := by
  have hset : ∀ r, (s.setPub src r).sp.sentSlot = s.sp.sentSlot := fun r => Publisher.set_sentSlot _ _ _
  simp only [State.followKind]
  split
  · rfl
  · split
    · exact hset _
    · exact (State.settle_sentSlot _ _ _).trans (hset _)

theorem State.putInput_sentSlot (s : State) (id : InputId) (r : InputRecord) : (s.putInput id r).sp.sentSlot = s.sp.sentSlot :=
  (State.followKind_sentSlot _ _ _).trans (by simp)

theorem State.powerInput_sentSlot (s : State) (id : InputId) : (s.powerInput id).sp.sentSlot = s.sp.sentSlot := by
  simp only [State.powerInput]
  split
  · exact State.putInput_sentSlot _ _ _
  · rfl

theorem State.rederiveMode_sentSlot (s : State) : s.rederiveMode.sp.sentSlot = s.sp.sentSlot := by
  have hwake : ∀ x : State, x.wake.sp.sentSlot = x.sp.sentSlot := fun x => by
    simp [State.wake, State.powerInput_sentSlot]
  simp only [State.rederiveMode, State.changeMode]
  split
  · split
    · rfl
    · simp only [State.enterMode]
      split
      · split <;> simp [State.eachOutput, hwake]
      · split <;> simp [State.eachOutput, hwake]
      · simp [State.eachOutput, State.unpowerInput, State.putInput_sentSlot]
      · rfl
  · rfl

theorem State.handFreed_sentSlot (s : State) (freed : List Stream) : (s.handFreed freed).sp.sentSlot = s.sp.sentSlot :=
  State.eachSource_keeps (P := fun x => x.sp.sentSlot = s.sp.sentSlot) rfl fun x src hx => by
    simp only [State.afterFreeing]
    split
    · exact (State.settle_sentSlot x src _).trans hx
    · exact hx

theorem State.judge_sentSlot (s : State) (slot : SlotNo) (header : Option SlotHeader) : (s.judge slot header).sp.sentSlot = s.sp.sentSlot := by
  simp only [State.judge, State.afterTableLoss]
  split
  · exact (State.rederiveMode_sentSlot _).trans (State.handFreed_sentSlot _ _)
  · exact State.handFreed_sentSlot _ _

theorem State.slotEnds_sentSlot (s : State) (slot : SlotNo) (heard : List Byte) :
    (s.slotEnds slot heard).sp.sentSlot = (s.sentBytes slot).or s.sp.sentSlot := by
  have hring : ∀ x : State, x.writeRing.sp = x.sp := fun x => by simp
  simp only [State.slotEnds]
  split
  · rw [hring]
    exact State.judge_sentSlot _ _ _
  · exact State.judge_sentSlot _ _ _

/-! ## The receiver at a judgement: a held target that the last output releases (R72) -/

/-- The receiver of one state stands in another, or has switched to its held target with no output sounding. -/
def State.KeepsOrSwitches (s t : State) : Prop :=
  t.sr = s.sr ∨ ∃ p, s.sr.target = some p ∧ t.sr = Receiver.switched p ∧ ∀ n : OutputNo, t.om.outputs[n].state.sounding = false

theorem State.FollowsMode.keepsOrSwitches {s t : State} (h : s.FollowsMode t) : s.KeepsOrSwitches t := by
  rcases h with ⟨hkept, -⟩ | ⟨hoff, ⟨-, hkept⟩ | ⟨p, hp, hswitched, -⟩⟩
  · exact .inl hkept
  · exact .inl hkept
  · exact .inr ⟨p, hp, hswitched, fun n => by rw [hoff n]; rfl⟩

theorem State.rederiveMode_receiver (s : State) : s.KeepsOrSwitches s.rederiveMode := s.rederiveMode_follows.keepsOrSwitches

theorem State.judge_receiver (s : State) (slot : SlotNo) (header : Option SlotHeader) : s.KeepsOrSwitches (s.judge slot header) := by
  simp only [State.judge, State.afterTableLoss]
  split
  · simpa [State.KeepsOrSwitches] using State.rederiveMode_receiver
      (({ s with st := (judgeSlot s.st slot header).table } : State).handFreed (judgeSlot s.st slot header).freed)
  · exact .inl (by simp)

theorem State.judge_round {s : State} {m : RoundNo} (h : s.rt.roundNumber = some m) (slot : SlotNo) (header : Option SlotHeader) :
    (s.judge slot header).rt.roundNumber = some m := by
  have hclock : ∀ x : State, x.rederiveMode.rt.roundNumber = x.rt.roundNumber := fun x => by
    obtain ⟨-, -, hnumber, -⟩ := RoundTimer.SameClock.fields _ _ x.rederiveMode_clock
    exact hnumber
  simp only [State.judge, State.afterTableLoss]
  split <;> simpa [hclock] using h

/-! ## The ring (R68, R71) -/

@[simp] theorem entryOf_round (round : RoundNo) (gathered : List GatheredSlot) : (entryOf round gathered).round = some round := by
  simp only [entryOf]
  split
  · rfl
  · split
    · split <;> rfl
    · rfl

theorem entryOf_nil (round : RoundNo) : (entryOf round []).status = .missing := rfl

/-- The slots of a round bring its run where they are as many as the run is wide, and all good slots of one run. -/
def wholeRun (first : GatheredSlot) (brought : List GatheredSlot) : Prop :=
  brought.length = widthOf first.kind ∧ ∀ x ∈ brought, x.good = true ∧ x.kind = first.kind ∧ x.start = first.start

theorem wholeRun_iff (first : GatheredSlot) (brought : List GatheredSlot) :
    (brought.length == widthOf first.kind && brought.all fun x => x.good && x.kind == first.kind && x.start == first.start) = true
      ↔ wholeRun first brought := by
  simp [wholeRun, and_assoc]

theorem entryOf_whole {round : RoundNo} {first : GatheredSlot} {rest : List GatheredSlot} (h : wholeRun first (first :: rest)) :
    (entryOf round (first :: rest)).kind = some first.kind
      ∧ (if ∃ x ∈ first :: rest, x.muted = true then (entryOf round (first :: rest)).status = .muted
        else (entryOf round (first :: rest)).status = .valid ∧ (entryOf round (first :: rest)).data = (first :: rest).map (·.data)) := by
  rw [entryOf, if_pos ((wholeRun_iff _ _).mpr h)]
  by_cases hmuted : ∃ x ∈ first :: rest, x.muted = true
  · rw [if_pos (List.any_eq_true.mpr hmuted), if_pos hmuted]
    exact ⟨rfl, rfl⟩
  · rw [if_neg (fun h => hmuted (List.any_eq_true.mp h)), if_neg hmuted]
    exact ⟨rfl, rfl, rfl⟩

theorem entryOf_broken {round : RoundNo} {first : GatheredSlot} {rest : List GatheredSlot} (h : ¬wholeRun first (first :: rest)) :
    (entryOf round (first :: rest)).status = .missing := by
  rw [entryOf, if_neg (fun hc => h ((wholeRun_iff _ _).mp hc))]
  rfl

theorem RingEntry.received_iff (e : RingEntry) : e.received = true ↔ e.status ≠ .missing := by simp [RingEntry.received]

theorem Receiver.entryFor_received (sr : Receiver) (r : RoundNo) :
    (sr.entryFor r).received = true ↔ (sr.ring[ringIndex r]).round = some r ∧ (sr.ring[ringIndex r]).status ≠ .missing := by
  simp only [Receiver.entryFor, beq_iff_eq]
  split
  next h => simp only [h, true_and, RingEntry.received_iff]
  next h => exact ⟨fun hr => absurd hr Bool.false_ne_true, fun hc => absurd hc.1 h⟩

/-- The lead after an entry is written into the ring (R69, R71). -/
theorem Receiver.leadAfter_written {sr : Receiver} {round : RoundNo} (h : (sr.ring[ringIndex round]).round = some round) :
    sr.leadAfter round = sr.lead.bind fun r =>
      if (sr.ring[ringIndex round]).status ≠ .missing ∧ roundBefore round r = true then some round
      else if (sr.ring[ringIndex r]).round = some r ∧ (sr.ring[ringIndex r]).status ≠ .missing then some r
      else none := by
  simp only [Receiver.leadAfter, Bool.and_eq_true, Receiver.entryFor_received, h, true_and]

/-- What the end of the audio slots leaves of a receiver that is subscribed, in a round with a number. -/
theorem State.writeRing_subscribed {s : State} {stream : Stream} {m : RoundNo} (hsub : s.sr.subscription = some stream)
    (hm : s.rt.roundNumber = some m) {entry : RingEntry} (he : entryOf (m - 1) s.sr.gathered = entry) :
    s.writeRing.sr.subscription = some stream ∧ s.writeRing.sr.target = s.sr.target ∧ s.writeRing.sr.gathered = []
      ∧ s.writeRing.sr.ring = s.sr.ring.set (ringIndex (m - 1)) entry
      ∧ (if s.sr.state = .lost ∧ entry.status ≠ .missing then
          s.writeRing.sr.state = .filling ∧ s.writeRing.sr.lead = some (m - 1) ∧ s.writeRing.cr.holds .programLost = false
        else
          s.writeRing.sr.state = s.sr.state
            ∧ s.writeRing.sr.lead = s.sr.lead.bind fun r =>
              if entry.status ≠ .missing ∧ roundBefore (m - 1) r = true then some (m - 1)
              else if (s.writeRing.sr.ring[ringIndex r]).round = some r ∧ (s.writeRing.sr.ring[ringIndex r]).status ≠ .missing then some r
              else none) := by
  have hround : entry.round = some (m - 1) := he ▸ entryOf_round _ _
  by_cases hfound : s.sr.state = .lost ∧ entry.status ≠ .missing
  · have hf : (s.sr.state == .lost && entry.received) = true := by simpa [RingEntry.received_iff] using hfound
    simp only [State.writeRing, hsub, hm, he, hf, if_true, if_pos hfound]
    exact ⟨trivial, trivial, trivial, trivial, trivial, trivial, Conditions.put_holds _ _ _⟩
  · have hf : (s.sr.state == .lost && entry.received) = false :=
      Bool.eq_false_iff.mpr fun h => hfound (by simpa [RingEntry.received_iff] using h)
    have hring : (s.sr.ring.set (ringIndex (m - 1)) entry)[ringIndex (m - 1)] = entry := by simp
    have hlead := Receiver.leadAfter_written (sr := { s.sr with ring := s.sr.ring.set (ringIndex (m - 1)) entry, gathered := [] })
      (round := m - 1) (by rw [hring]; exact hround)
    rw [hring] at hlead
    simp only [State.writeRing, hsub, hm, he, hf, Bool.false_eq_true, if_false, if_neg hfound]
    refine ⟨trivial, trivial, trivial, trivial, trivial, ?_⟩
    exact hlead

theorem emptyRing_missing (i : Fin 8) : emptyRing[i].status = .missing := by simp [emptyRing, RingEntry.missing]

/-- What the end of the audio slots leaves of a receiver that has just switched. -/
theorem State.writeRing_switched {s : State} {p : Option Stream} (h : s.sr = Receiver.switched p) :
    s.writeRing.sr.subscription = p ∧ s.writeRing.sr.target = none ∧ s.writeRing.sr.gathered = []
      ∧ ∀ i : Fin 8, s.writeRing.sr.ring[i].status = .missing := by
  cases p with
  | none =>
    simp only [State.writeRing, h, Receiver.switched]
    exact ⟨trivial, trivial, trivial, emptyRing_missing⟩
  | some stream =>
    cases hm : s.rt.roundNumber with
    | none =>
      simp only [State.writeRing, h, Receiver.switched, hm]
      exact ⟨trivial, trivial, trivial, emptyRing_missing⟩
    | some m =>
      obtain ⟨hsub, htarget, hgathered, hring, -⟩ := State.writeRing_subscribed (s := s) (by rw [h]; rfl) hm rfl
      refine ⟨hsub, htarget.trans (by rw [h]; rfl), hgathered, fun i => ?_⟩
      rw [hring, h]
      simp only [Receiver.switched, Fin.getElem_fin, Vector.getElem_set]
      split
      · rfl
      · exact emptyRing_missing i

/-- The end of a slot is its judgement, and the write of the ring at the last slot (R68). -/
theorem State.slotEnds_judged {s : State} {m : RoundNo} (hm : s.rt.roundNumber = some m) (slot : SlotNo) (heard : List Byte) :
    ∃ judged : State, judged.rt.roundNumber = some m
      ∧ (judged.sr = { s.sr with gathered := s.gather slot (validHeader s.rt.roundNumber slot heard) }
        ∨ ∃ p, s.sr.target = some p ∧ judged.sr = Receiver.switched p ∧ ∀ n : OutputNo, judged.om.outputs[n].state.sounding = false)
      ∧ s.slotEnds slot heard = if slot = 23 then judged.writeRing else judged := by
  refine ⟨(s.hearSlot slot (validHeader s.rt.roundNumber slot heard)).judge slot ((validHeader s.rt.roundNumber slot heard).map (·.1)),
    State.judge_round (by exact hm) _ _, ?_, by simp only [State.slotEnds, beq_iff_eq]⟩
  exact State.judge_receiver _ _ _

/-! ## What a station sends (R40, R65, R66) -/

theorem State.sends_own {s : State} {slot : SlotNo} {e : SlotEntry} (he : s.st[slot] = some e) (hown : e.stream.station = s.own)
    (hsource : s.hasSource e.stream.source = true) (hmode : s.pt.mode ≠ .joining) :
    ∃ h data, s.sends slot = some (h, data) ∧ h.stream = e.stream ∧ h.kind = e.kind ∧ h.part = slot.val - e.start.val
      ∧ (∀ m, s.rt.roundNumber = some m → h.capture = captureByte m)
      ∧ (if (s.sp.get e.stream.source).state = .published ∧ (s.sp.get e.stream.source).capture.usable = true
            ∧ (s.sp.get e.stream.source).capture.content.fits e.kind = true then
          h.muted = false ∧ data = (s.sp.get e.stream.source).capture.content.data h.part s.freeDraws
        else h.muted = true ∧ data = List.replicate 144 0) := by
  have hsends : (e.stream.station == s.own && s.hasSource e.stream.source && s.pt.mode != .joining) = true := by simp [hown, hsource, hmode]
  simp only [State.sends, he, hsends, if_true]
  refine ⟨_, _, rfl, rfl, rfl, rfl, fun m hm => by simp [hm], ?_⟩
  split
  next hplays => simp [hplays]
  next hmuted =>
    have hflag : (!((s.sp.get e.stream.source).state == .published && (s.sp.get e.stream.source).capture.usable
        && (s.sp.get e.stream.source).capture.content.fits e.kind)) = true := by
      rw [Bool.not_eq_true']
      exact Bool.eq_false_iff.mpr fun hall => hmuted (by simpa [and_assoc] using hall)
    simp only [hflag, if_true]
    exact ⟨trivial, rfl⟩

theorem State.sends_other {s : State} {slot : SlotNo}
    (h : ∀ e, s.st[slot] = some e → e.stream.station ≠ s.own ∨ s.hasSource e.stream.source = false ∨ s.pt.mode = .joining) :
    s.sends slot = none := by
  simp only [State.sends]
  split
  next e he => simpa [Bool.and_eq_true, or_assoc, imp_iff_not_or] using h e he
  next => rfl

theorem State.hasSource_iff (s : State) (src : Source) : s.hasSource src = true ↔ (src = .t → s.cl.values.tunerFitted = true) := by
  cases src <;> simp [State.hasSource]

end Sys2Proof.Machine

namespace Sys2Proof.Proofs

open Sys2Proof.Machine

/-- Settles O23, by the entry of the slot. -/
theorem ownSlotsAreSent : Obligations.OwnSlotsAreSent := by
  intro slot heard s ht
  refine ⟨_, exec_slotEnd ht slot heard, fun e he hown hsource hmode => ?_, fun hother => ?_⟩
  · obtain ⟨h, data, hsends, hstream, hkind, hpart, hcapture, hdata⟩ := s.sends_own he hown ((s.hasSource_iff _).mpr hsource) hmode
    refine ⟨h, data, ?_, hstream, hkind, hpart, hcapture, hdata⟩
    exact (s.slotEnds_sentSlot slot heard).trans (by simp [State.sentBytes, hsends])
  · have hsends : s.sends slot = none := State.sends_other fun e he =>
      (hother e he).imp_right (Or.imp_left fun ⟨hsource, hfitted⟩ => by simp [State.hasSource, hsource, hfitted])
    exact (s.slotEnds_sentSlot slot heard).trans (by simp [State.sentBytes, hsends])

/-- Settles O24: the judgement of the slot leaves the receiver, or switches it to its held target. -/
theorem ringIsWritten : Obligations.RingIsWritten := by
  intro slot heard stream m s ht hsub hm
  obtain ⟨judged, hround, hjudge, hends⟩ := s.slotEnds_judged hm slot heard
  refine ⟨_, s.gather slot (validHeader s.rt.roundNumber slot heard), exec_slotEnd ht slot heard, ?_, ?_⟩
  · simp only [State.gather, hsub, hm]
    cases s.st[slot] with
    | none => simp
    | some e =>
      by_cases he : e.stream = stream
      · cases validHeader (some m) slot heard with
        | none => simp [he]
        | some x => simp [he, Bool.beq_eq_decide_eq, Bool.and_assoc]
      · simp [he]
  rw [hends]
  have hsilentLeft : ∀ n : OutputNo, (if slot = 23 then judged.writeRing else judged).om.outputs[n] = judged.om.outputs[n] := fun n => by
    split <;> simp
  simp only [State.closeEvent_frame]
  rcases hjudge with hkept | ⟨p, hp, hswitched, hsilent⟩
  · by_cases hlast : slot = 23
    · have hsame : judged.sr.gathered = s.gather slot (validHeader s.rt.roundNumber slot heard) := by rw [hkept]
      obtain ⟨hwsub, hwtarget, hwgathered, hwring, hwlead⟩ :=
        State.writeRing_subscribed (s := judged) (by rw [hkept]; exact hsub) hround (congrArg (entryOf (m - 1)) hsame)
      rw [hkept] at hwtarget hwring hwlead
      simp only [if_pos hlast]
      rw [if_pos hwtarget]
      refine ⟨hwsub, fun hne => absurd hlast hne, fun _ => ⟨_, hwring, hwgathered, entryOf_round _ _, ?_, ?_⟩⟩
      · cases s.gather slot (validHeader s.rt.roundNumber slot heard) with
        | nil => exact entryOf_nil _
        | cons first rest =>
          dsimp only
          split
          next hwhole => exact entryOf_whole hwhole
          next hbroken => exact entryOf_broken hbroken
      · split
        next hfound =>
          rw [if_pos hfound] at hwlead
          exact hwlead
        next hfound =>
          rw [if_neg hfound] at hwlead
          refine ⟨hwlead.1, hwlead.2.trans ?_⟩
          cases s.sr.lead <;> rfl
    · simp only [if_neg hlast, hkept, if_true]
      exact ⟨hsub, fun _ => trivial, fun h => absurd h hlast⟩
  · have hswitch : (if slot = 23 then judged.writeRing else judged).sr.subscription = p
        ∧ (if slot = 23 then judged.writeRing else judged).sr.target = none ∧ (if slot = 23 then judged.writeRing else judged).sr.gathered = []
        ∧ ∀ i : Fin 8, (if slot = 23 then judged.writeRing else judged).sr.ring[i].status = .missing := by
      split
      · exact State.writeRing_switched hswitched
      · simp only [hswitched]
        exact ⟨rfl, rfl, rfl, emptyRing_missing⟩
    obtain ⟨hssub, hstarget, hsgathered, hsring⟩ := hswitch
    rw [if_neg (by simp [hstarget, hp])]
    exact ⟨hp.trans (by rw [hssub]), hstarget, hsgathered, fun n => by rw [hsilentLeft]; exact hsilent n, hsring⟩

end Sys2Proof.Proofs
end

section
/-! Proofs about the loudspeaker outputs (chapter 8): the events that end their ramps, gate them and load their widths. -/

namespace Sys2Proof.Machine

theorem State.closeEvent_pt_quiet {s : State} (h : s.pt.presenceDue = false) : s.closeEvent.pt = s.pt := by
  have hpt : ∀ pt : PeerTable, pt.presenceDue = false → { pt with presenceDue := false } = pt := fun pt hp => by
    cases pt
    simpa using hp.symm
  exact hpt s.pt h

theorem State.engineBegin_cr (s : State) : s.engineBegin.cr = s.cr := by simp

/-- An event that leaves the matrix leaves it also where it stands for a step of the coming round begin (R121). -/
theorem State.atRoundBegin_stands {s : State} {act : State → State} (h : ∀ mm, (act { s with mm := mm }).mm = mm) :
    ∃ before, s.atRoundBegin act = { act { s with mm := before } with mm := s.mm } := by
  cases hswapped : s.mm.swapped with
  | true =>
    refine ⟨s.mm, ?_⟩
    rw [State.atRoundBegin, if_pos hswapped]
    exact congrArg (fun mm => ({ act s with mm := mm } : State)) (h s.mm)
  | false =>
    refine ⟨{ s.mm.exchange with swapped := true }, ?_⟩
    have hdirty : ({ s.mm.exchange with swapped := true } : MixMatrix).dirty = false := rfl
    simp only [State.atRoundBegin, hswapped, h, hdirty, Bool.false_eq_true, if_false]
    simp [MixMatrix.exchange, ← hswapped]

/-! ## The go condition (R127, R128) -/

theorem State.goStart_setOutput (s : State) (n : OutputNo) {o : OutputRecord} (h : o.roleStatus = s.om.outputs[n].roleStatus) :
    (s.setOutput n o).goStart n = s.goStart n := by
  have hn : (s.setOutput n o).om.outputs[n] = o := by rw [State.setOutput_outputs, if_pos rfl]
  simp only [State.goStart, State.goCommon, hn, h]
  rfl

theorem State.goCommon_low {s : State} (h : s.sm = .low) (n : OutputNo) : s.goCommon n = false := by simp [State.goCommon, h]

theorem State.goCommon_muted {s : State} (h : s.pins.mute = true) (n : OutputNo) : s.goCommon n = false := by simp [State.goCommon, h]

/-- Without the go condition the outputs that ramp up or play turn to RAMP_DOWN at their position. -/
theorem OutputRecord.evaluate_stop (o : OutputRecord) :
    o.evaluate false false = if o.state = .rampUp ∨ o.state = .playing then { o with state := .rampDown } else o := by
  cases hs : o.state <;> simp [OutputRecord.evaluate, hs]

theorem State.evalGo_outputs (s : State) (n : OutputNo) : s.evalGo.om.outputs[n] = (s.om.outputs[n]).evaluate (s.goStart n) (s.goContinue n) := by
  rw [State.evalGo, State.mapOutputs_outputs]

theorem State.evalGo_stops {s : State} {n : OutputNo} (h : s.goCommon n = false) :
    s.evalGo.om.outputs[n] =
      if s.om.outputs[n].state = .rampUp ∨ s.om.outputs[n].state = .playing then { s.om.outputs[n] with state := .rampDown }
      else s.om.outputs[n] := by
  rw [State.evalGo_outputs, ← OutputRecord.evaluate_stop, State.goStart, State.goContinue, h]
  rfl

/-- An output enters SILENT, or RAMP_UP at 0 where the start form holds, in an ACTIVE station, and OFF in another (R129, R134). -/
def State.restState (s : State) (n : OutputNo) : OutState := if s.isActive = true then if s.goStart n = true then .rampUp else .silent else .off

theorem OutputRecord.evaluate_rest {s : State} {n : OutputNo} {o : OutputRecord} (active : o.state = if s.isActive = true then .silent else .off)
    (hramp : o.ramp = 0) (continues : Bool) :
    (o.evaluate (s.goStart n) continues).state = s.restState n ∧ (o.evaluate (s.goStart n) continues).ramp = 0
      ∧ (o.evaluate (s.goStart n) continues).taken = o.taken := by
  cases ha : s.isActive with
  | false =>
    simp only [ha, Bool.false_eq_true, if_false] at active
    simp [OutputRecord.evaluate, active, State.restState, ha, hramp]
  | true =>
    simp only [ha, if_true] at active
    cases hg : s.goStart n <;> simp [OutputRecord.evaluate, active, State.restState, ha, hg, hramp]

/-! ## The ramps and the decay (R129, R136) -/

theorem OutputRecord.rampAhead_completes {o : OutputRecord} (hs : o.state = .rampUp) (hramp : 15 ≤ o.ramp) (active : Bool) :
    o.rampAhead active = { o with state := .playing, ramp := 16, taken := { o.taken with ramp := true } } := by
  simp [OutputRecord.rampAhead, OutputRecord.rampMove, hs, hramp]

theorem OutputRecord.rampAhead_rests {o : OutputRecord} (hs : o.state = .rampDown) (hramp : o.ramp ≤ 1) (active : Bool) :
    o.rampAhead active = { o.toRest active with taken := { o.taken with ramp := true } } := by
  cases active <;> simp [OutputRecord.rampAhead, OutputRecord.rampMove, hs, hramp, OutputRecord.toRest, OutputRecord.toSilent, OutputRecord.toOff]

theorem OutputRecord.toRest_state (o : OutputRecord) (active : Bool) :
    (o.toRest active).state = (if active = true then .silent else .off) ∧ (o.toRest active).ramp = 0 ∧ (o.toRest active).recovery = 0
      ∧ (o.toRest active).overload = o.overload := by
  cases active <;> exact ⟨rfl, rfl, rfl, rfl⟩

theorem OutputRecord.decayAhead_takes {o : OutputRecord} (hlow : 1 ≤ o.overload) (hhigh : o.overload ≤ 3) (hdecay : 4095 ≤ o.decay) :
    o.decayAhead = { o with overload := o.overload - 1, decay := 0, taken := { o.taken with decay := true } } := by
  simp [OutputRecord.decayAhead, OutputRecord.decayMove, hlow, hhigh, hdecay]

/-- The last step of a ramp down, made ahead of the round begin. -/
def State.rampDownEnds (n : OutputNo) (s : State) : State := (s.setOutput n (s.om.outputs[n].rampAhead s.isActive)).evalGo.switchIfDown

theorem exec_rampDownComplete {s : State} {n : OutputNo} (hj : s.joined = true) (hs : s.om.outputs[n].state = .rampDown)
    (hramp : s.om.outputs[n].ramp ≤ 1) : exec (.rampDownComplete n) s = .next (s.atRoundBegin (State.rampDownEnds n)).closeEvent :=
  congrArg Host.Outcome.next (if_pos (by simp [-Fin.getElem_fin, hj, hs, hramp]))

theorem State.rampDownEnds_outputs {s : State} {n : OutputNo} (hs : s.om.outputs[n].state = .rampDown) (hramp : s.om.outputs[n].ramp ≤ 1) :
    (s.rampDownEnds n).om.outputs[n].state = s.restState n ∧ (s.rampDownEnds n).om.outputs[n].ramp = 0
      ∧ (s.rampDownEnds n).om.outputs[n].taken.ramp = true := by
  obtain ⟨hstate, hzero, -, -⟩ := (s.om.outputs[n]).toRest_state s.isActive
  have hahead := OutputRecord.rampAhead_rests hs hramp s.isActive
  have hrole : ((s.om.outputs[n]).rampAhead s.isActive).roleStatus = s.om.outputs[n].roleStatus := by rw [hahead]; exact OutputRecord.toRest_role _ _
  have hn : ∀ o, (s.setOutput n o).om.outputs[n] = o := fun o => by rw [State.setOutput_outputs, if_pos rfl]
  have hom : (s.rampDownEnds n).om = (s.setOutput n ((s.om.outputs[n]).rampAhead s.isActive)).evalGo.om := by simp [State.rampDownEnds]
  rw [hom, State.evalGo_outputs, hn, State.goStart_setOutput s n hrole]
  obtain ⟨hrest, hrampZero, htaken⟩ := OutputRecord.evaluate_rest (s := s) (n := n) (o := (s.om.outputs[n]).rampAhead s.isActive)
    (by rw [hahead]; exact hstate) (by rw [hahead]; exact hzero)
    ((s.setOutput n ((s.om.outputs[n]).rampAhead s.isActive)).goContinue n)
  exact ⟨hrest, hrampZero, by rw [htaken]; rfl⟩

/-- Without a held target the step changes the output alone. -/
theorem State.rampDownEnds_alone {s : State} {n : OutputNo} (hnone : s.sr.target = none) (hstatus : s.cr.statusDue = false)
    (hpresence : s.pt.presenceDue = false) : ChangesOnly [.om] s (s.atRoundBegin (State.rampDownEnds n)).closeEvent := by
  have hact : ∀ mm, ({ s with mm := mm } : State).rampDownEnds n =
      (({ s with mm := mm } : State).setOutput n ((s.om.outputs[n]).rampAhead s.isActive)).evalGo := fun mm => State.switchIfDown_none hnone
  obtain ⟨before, heq⟩ := State.atRoundBegin_stands (s := s) (act := State.rampDownEnds n) fun mm => by rw [hact]; rfl
  rw [hact] at heq
  rw [State.closeEvent_quiet (by rw [heq]; exact hstatus) (by rw [heq]; exact hpresence), heq]
  intro p hp
  cases p
  case om => exact absurd (by decide) hp
  all_goals rfl

theorem State.switchIfDown_released {s : State} {p : Option Stream} (htarget : s.sr.target = some p)
    (hsilent : ∀ n : OutputNo, s.switchIfDown.om.outputs[n].state.sounding = false) :
    s.switchIfDown.sr.subscription = p ∧ s.switchIfDown.sr.target = none := by
  have hdown : s.sounding = false := Bool.eq_false_iff.mpr fun hs => by
    obtain ⟨n, hn⟩ := s.sounding_iff.mp hs
    have hom : s.switchIfDown.om = s.om := by simp
    exact absurd ((hom ▸ hsilent n).symm.trans hn) Bool.false_ne_true
  rcases State.switchIfDown_off_sr hdown with ⟨hnone, -⟩ | ⟨q, hq, heq⟩
  · rw [hnone] at htarget
    cases htarget
  · rw [htarget] at hq
    cases hq
    rw [heq, State.switchTo_sr]
    exact ⟨rfl, rfl⟩

end Sys2Proof.Machine

namespace Sys2Proof.Proofs

open Sys2Proof.Machine

/-- Settles O40, by what the boundary does at one output. -/
theorem carrierLoadsTheWidths : Obligations.CarrierLoadsTheWidths := by
  intro s hreset
  refine ⟨_, congrArg Host.Outcome.next (if_neg (by simp [hreset])), fun n => ?_, fun p hp => ?_⟩
  · refine (State.mapOutputs_outputs _ _ _).trans ?_
    simp only [State.boundaryOutput, State.widthNow]
    cases hs : (s.om.outputs[n]).state.sounding <;> cases he : (s.om.outputs[n]).enabled <;> simp
  · cases p
    case om => exact absurd (by decide) hp
    all_goals rfl

/-- Settles O39: at each of the four moves the go condition of every output is evaluated with the new level. -/
theorem supplyAndMuteGateTheOutputs : Obligations.SupplyAndMuteGateTheOutputs := by
  intro s hreset hquiet
  obtain ⟨hstatus, hpresence⟩ := State.quiet_iff.mp hquiet
  refine ⟨fun hnormal => ?_, fun hlow => ?_, ?_, ?_⟩
  · refine ⟨_, congrArg Host.Outcome.next (if_pos (by simp [hreset, hnormal])), rfl, Conditions.put_holds _ _ _,
      fun n => State.evalGo_stops (State.goCommon_low rfl n), fun p hp => ?_⟩
    cases p
    case sm | om | cr | lc => exact absurd (by decide) hp
    case pt => exact State.closeEvent_pt_quiet hpresence
    all_goals rfl
  · refine ⟨_, congrArg Host.Outcome.next (if_pos (by simp [hreset, hlow])), by simp, ?_, fun n => ?_, fun c hended hidle hreads hc => ?_, fun p hp => ?_⟩
    · exact (congrArg (fun cr : Conditions => cr.holds .supplyLow) (State.engineBegin_cr _)).trans (Conditions.put_holds _ _ _)
    · simp only [State.closeEvent_frame, State.engineBegin_frame]
      exact State.evalGo_outputs _ n
    · have hmay : (({ s with sm := .normal } : State).setCondition .supplyLow false).evalGo.engineMayBegin = true := by
        simp only [State.inReset] at hreset
        simp [State.engineMayBegin, State.inReset, hreset, hended, hidle, hreads]
      simp [State.engineBegin, hmay, hc, State.setStore, PresetStore.continueCompaction, PresetStore.enterStep]
    · cases p
      case sm | om | cr | lc | ps => exact absurd (by decide) hp
      case pt => exact (State.closeEvent_pt_quiet (by simpa using hpresence)).trans (by simp)
      all_goals simp [State.same]
  · refine ⟨_, congrArg Host.Outcome.next (if_neg (by simp [hreset])), rfl, Conditions.put_holds _ _ _,
      fun n => State.evalGo_stops (State.goCommon_muted rfl n), fun p hp => ?_⟩
    cases p
    case pins | om | cr | lc => exact absurd (by decide) hp
    case pt => exact State.closeEvent_pt_quiet hpresence
    all_goals rfl
  · refine ⟨_, congrArg Host.Outcome.next (if_neg (by simp [hreset])), rfl, Conditions.put_holds _ _ _, fun n => State.evalGo_outputs _ n, fun p hp => ?_⟩
    cases p
    case pins | om | cr | lc => exact absurd (by decide) hp
    case pt => exact State.closeEvent_pt_quiet hpresence
    all_goals rfl

/-- Settles O37, by the step of the output that each command makes ahead. -/
theorem outputTimersEnd : Obligations.OutputTimersEnd := by
  intro n s hj hquiet
  obtain ⟨hstatus, hpresence⟩ := State.quiet_iff.mp hquiet
  refine ⟨fun hs hramp => ?_, fun hs hramp => ?_, fun hlow hhigh hdecay => ?_⟩
  · refine congrArg Host.Outcome.next ((if_pos (by simp [-Fin.getElem_fin, hj, hs, hramp])).trans ?_)
    rw [OutputRecord.rampAhead_completes hs hramp]
    exact State.closeEvent_quiet hstatus hpresence
  · refine ⟨_, exec_rampDownComplete hj hs hramp, ?_⟩
    obtain ⟨before, after, heq⟩ := s.atRoundBegin_eq (State.rampDownEnds n)
    obtain ⟨hstate, hzero, htaken⟩ := State.rampDownEnds_outputs (s := { s with mm := before }) hs hramp
    have hom : (s.atRoundBegin (State.rampDownEnds n)).closeEvent.om = (({ s with mm := before } : State).rampDownEnds n).om := by rw [heq]; rfl
    have hsr : (s.atRoundBegin (State.rampDownEnds n)).closeEvent.sr = (({ s with mm := before } : State).rampDownEnds n).sr := by rw [heq]; rfl
    rw [hom, hsr]
    refine ⟨hstate, hzero, htaken, fun hnone => ?_, fun program hprogram hsilent => ?_⟩
    · exact State.rampDownEnds_alone hnone hstatus hpresence
    · exact State.switchIfDown_released hprogram hsilent
  · refine congrArg Host.Outcome.next ((if_pos (by simp [-Fin.getElem_fin, hj, OutputRecord.decayDue, hlow, hhigh, hdecay])).trans ?_)
    rw [OutputRecord.decayAhead_takes hlow hhigh hdecay]
    exact State.closeEvent_quiet hstatus hpresence

end Sys2Proof.Proofs
end

section
/-! Proofs about faults of the outputs (chapter 8): their counting, the end of recovery, and what the station reports of them. -/

namespace Sys2Proof.Machine

/-! ## What the close of an event reports (R39, R183) -/

theorem Conditions.put_statusDue (c : Conditions) (k : Condition) (on : Bool) : (c.put k on).statusDue = (c.statusDue || c.holds k != on) := by
  simp only [Conditions.put]
  split
  next h => simp [beq_iff_eq.mp h]
  next h => simp [bne, Bool.eq_false_iff.mpr h]

theorem enterQueue_nil (m : Msg) : enterQueue [] m = [{ msg := m, inFlight := false }] := rfl

/-- Into an empty queue an event enters the reports that it makes. -/
theorem State.closeEvent_reports {s : State} (hq : s.lc.queue = []) (hstatus : s.cr.statusDue = true) :
    s.closeEvent.queued (.status s.statusOf)
      ∧ (s.pt.presenceDue = true → s.pt.firstOffered = true → s.closeEvent.queued (.presence s.presenceOf)) := by
  have hone : (s.lc.offer (.status s.statusOf)).queue = [{ msg := .status s.statusOf, inFlight := false }] := by
    rw [LinkController.offer_enters _ _ (by simp [hq]) (by simp [hq]), hq, enterQueue_nil]
  have htwo : ((s.lc.offer (.status s.statusOf)).offer (.presence s.presenceOf)).queue =
      enterQueue [{ msg := .status s.statusOf, inFlight := false }] (.presence s.presenceOf) := by
    rw [LinkController.offer_enters _ _ (by simp [hone]) (by simp [hone, coalesces]), hone]
  simp only [State.queued, State.closeEvent, hstatus, if_true]
  by_cases hpresence : (s.pt.presenceDue && s.pt.firstOffered) = true
  · simp only [hpresence, if_true, htwo]
    exact ⟨⟨_, (enterQueue_mem _ _ _).mpr (.inr (List.mem_singleton.mpr rfl)), rfl⟩, fun _ _ => ⟨_, (enterQueue_mem _ _ _).mpr (.inl rfl), rfl⟩⟩
  · simp only [hpresence, Bool.false_eq_true, if_false, hone]
    exact ⟨⟨_, List.mem_singleton.mpr rfl, rfl⟩, fun hdue hfirst => absurd (by simp [hdue, hfirst]) hpresence⟩

/-! ## One more fault (R133, R135) -/

theorem OutputRecord.fault_eq (o : OutputRecord) :
    o.fault = { o with
      state := if o.overload + 1 < 4 then .faulted else .retired
      ramp := 0
      enabled := false
      overload := o.overload + 1
      decay := 0
      recovery := if o.overload + 1 < 4 then 250 else 0
      recovered := 0 } := by
  simp only [OutputRecord.fault]
  split <;> rfl

theorem State.countFault_holds (s : State) (n : OutputNo) :
    ((s.countFault n).cr.holds (.outputFaulted n) = true ↔ s.om.outputs[n].overload + 1 < 4)
      ∧ ((s.countFault n).cr.holds (.outputRetired n) = true ↔ 4 ≤ s.om.outputs[n].overload + 1) := by
  simp only [State.countFault, State.announceIf_frame, State.setCondition]
  constructor
  · rw [Conditions.put_holds_ne _ _ _ _ (by simp), Conditions.put_holds, Bool.not_eq_true', decide_eq_false_iff_not]
    exact not_le
  · rw [Conditions.put_holds]
    simp

/-- The record of an output at a fault, which the coming round begin leaves where it is taken first there (R136, R137). -/
def OutputRecord.faultedAt (o : OutputRecord) (edge : FaultEdge) : OutputRecord :=
  if edge = .assertsAheadOfRoundBegin then o.fault.holdSteps else o.fault

theorem OutputRecord.faultedAt_eq (o : OutputRecord) (edge : FaultEdge) :
    o.faultedAt edge = { o with
      state := if o.overload + 1 < 4 then .faulted else .retired
      ramp := 0
      enabled := false
      overload := o.overload + 1
      decay := 0
      recovery := if o.overload + 1 < 4 then 250 else 0
      recovered := 0
      taken := if edge = .assertsAheadOfRoundBegin then { o.taken with decay := true, recovery := true } else o.taken } := by
  simp only [OutputRecord.faultedAt, OutputRecord.holdSteps, OutputRecord.fault_eq]
  split <;> rfl

theorem State.faultEvent_effects (s : State) (n : OutputNo) (edge : FaultEdge) :
    (s.faultEvent n edge).om = (s.setOutput n (s.om.outputs[n].faultedAt edge)).om ∧ (s.faultEvent n edge).pins = s.pins
      ∧ ∀ k, k ≠ .decodeConceal → k ≠ .programLost → (s.faultEvent n edge).cr.holds k = (s.countFault n).cr.holds k := by
  by_cases hedge : edge = .assertsAheadOfRoundBegin
  · simp only [State.faultEvent, beq_iff_eq, if_pos hedge, OutputRecord.faultedAt]
    obtain ⟨before, after, heq⟩ := s.atRoundBegin_eq fun x => ((x.countFault n).holdSteps n).switchIfDown
    rw [heq]
    refine ⟨?_, by simp, fun k hk hlost => (State.switchIfDown_holds _ k hk hlost).trans ?_⟩
    · simp [State.holdSteps, State.countFault_om, State.setOutput]
    · rfl
  · simp only [State.faultEvent, beq_iff_eq, if_neg hedge, OutputRecord.faultedAt]
    exact ⟨by simp [State.countFault_om], by simp, fun k hk hlost => State.switchIfDown_holds _ k hk hlost⟩

/-! ## The end of recovery (R134) -/

theorem OutputRecord.evaluate_fault (o : OutputRecord) (start continues : Bool) : o.fault.evaluate start continues = o.fault := by
  simp only [OutputRecord.fault]
  split <;> rfl

theorem OutputRecord.evaluate_counts (o : OutputRecord) (start continues : Bool) :
    (o.evaluate start continues).recovery = o.recovery ∧ (o.evaluate start continues).overload = o.overload := by
  simp only [OutputRecord.evaluate]
  (repeat' split) <;> exact ⟨rfl, rfl⟩

theorem State.restState_ne_faulted (s : State) (n : OutputNo) : s.restState n ≠ .faulted := by
  simp only [State.restState]
  (repeat' split) <;> exact nofun

theorem State.endRecovery_output (s : State) (n : OutputNo) :
    (s.endRecovery n).om.outputs[n] =
      if s.pins.faultLines[n] = true then ({ s.om.outputs[n] with recovery := 0 } : OutputRecord).fault
      else (s.om.outputs[n].toRest s.isActive).evaluate (s.goStart n) ((s.setOutput n (s.om.outputs[n].toRest s.isActive)).goContinue n) := by
  have hn : ∀ o, (s.setOutput n o).om.outputs[n] = o := fun o => by rw [State.setOutput_outputs, if_pos rfl]
  cases hline : s.pins.faultLines[n] with
  | true =>
    obtain ⟨x, heq, hom⟩ := s.endRecovery_outputs n
    rw [heq, State.evalGo_outputs, hom, if_pos hline, hn, OutputRecord.evaluate_fault]
    rfl
  | false =>
    have heq : s.endRecovery n =
        ((s.setOutput n (s.om.outputs[n].toRest s.isActive)).setCondition (.outputFaulted n) false).announce.evalGo := by
      simp only [State.endRecovery]
      rw [if_neg (by simpa using hline)]
    rw [heq, State.evalGo_outputs, ← State.goStart_setOutput s n (OutputRecord.toRest_role _ s.isActive)]
    exact congrArg (fun o : OutputRecord => o.evaluate _ _) (hn _)

theorem State.endRecovery_faulted (s : State) (n : OutputNo) :
    (s.endRecovery n).cr.holds (.outputFaulted n) = true ↔ s.pins.faultLines[n] = true ∧ s.om.outputs[n].overload + 1 < 4 := by
  simp only [State.endRecovery, State.evalGo_frame]
  split
  next hline =>
    rw [(State.countFault_holds _ n).1, State.setOutput_outputs, if_pos rfl]
    simpa using fun _ => hline
  next hline =>
    exact iff_of_false (Bool.eq_false_iff.mp (Conditions.put_holds _ _ _)) fun h => hline h.1

theorem State.countFault_statusDue {s : State} {n : OutputNo} (h : s.cr.statusDue = true) : (s.countFault n).cr.statusDue = true := by
  simp [State.countFault, State.setCondition, Conditions.put_statusDue, h]

theorem State.countFault_presenceDue {s : State} {n : OutputNo} (h : s.pt.presenceDue = true) : (s.countFault n).pt.presenceDue = true := by
  simp [State.countFault, State.announceIf, h]

/-- The end of recovery offers STATUS, where OUTPUT_FAULTED was held, and PRESENCE. -/
theorem State.endRecovery_reports {s : State} {n : OutputNo} (h : s.cr.holds (.outputFaulted n) = true) :
    (s.endRecovery n).cr.statusDue = true ∧ (s.endRecovery n).pt.presenceDue = true := by
  have hcleared : ((s.cr.put (.outputFaulted n) false)).statusDue = true := by simp [Conditions.put_statusDue, h]
  simp only [State.endRecovery, State.evalGo_frame]
  split
  · exact ⟨State.countFault_statusDue hcleared, State.countFault_presenceDue rfl⟩
  · exact ⟨hcleared, rfl⟩

/-- The command FAULT_RECOVERY_END before its event closes. -/
def State.recoveryEnds (s : State) (n : OutputNo) : State := ((s.recoverAt n 2).holdRamp n).holdStepsIf n s.pins.faultLines[n]

theorem exec_faultRecoveryEnd {s : State} {n : OutputNo} (hj : s.joined = true) (hs : s.om.outputs[n].state = .faulted)
    (hrecovery : s.om.outputs[n].recovery ≤ 1) : exec (.faultRecoveryEnd n) s = .next (s.recoveryEnds n).closeEvent :=
  congrArg Host.Outcome.next (if_pos (by simp [-Fin.getElem_fin, hj, hs, hrecovery]))

theorem State.recoveryEnds_output (s : State) (n : OutputNo) :
    (s.recoveryEnds n).om.outputs[n] =
      { (s.endRecovery n).om.outputs[n].recoverAt 2 with
        taken :=
          { (s.endRecovery n).om.outputs[n].taken with
            ramp := true
            decay := s.pins.faultLines[n] || (s.endRecovery n).om.outputs[n].taken.decay
            recovery := s.pins.faultLines[n] || (s.endRecovery n).om.outputs[n].taken.recovery } } := by
  have hn : ∀ (x : State) o, (x.setOutput n o).om.outputs[n] = o := fun x o => by rw [State.setOutput_outputs, if_pos rfl]
  cases hline : s.pins.faultLines[n] <;>
    simp only [State.recoveryEnds, State.holdStepsIf, hline, Bool.false_eq_true, if_false, if_true, State.holdSteps, State.holdRamp, State.recoverAt,
      hn, OutputRecord.holdSteps, OutputRecord.recoverAt, Bool.true_or, Bool.false_or]

end Sys2Proof.Machine

namespace Sys2Proof.Proofs

open Sys2Proof.Machine

/-- Settles O38, by whether an assertion is a fault, and at the end of recovery by the line. -/
theorem faultsAreCounted : Obligations.FaultsAreCounted := by
  intro n s hreset
  refine ⟨fun edge hline hfault => ?_, fun edge hother => ?_, fun hj hs hrecovery => ?_⟩
  · have hfaultable : (s.om.outputs[n]).faultable edge = true := by
      rcases hfault with ⟨rfl, hc⟩ | ⟨rfl, hc⟩ | ⟨rfl, hc⟩ <;> simpa [-Fin.getElem_fin, OutputRecord.faultable] using hc
    have hdrives : (edge != .releases) = true := by rcases hfault with ⟨rfl, -⟩ | ⟨rfl, -⟩ | ⟨rfl, -⟩ <;> rfl
    obtain ⟨hom, hpins, hholds⟩ := (s.driveFaultLine n (edge != .releases)).faultEvent_effects n edge
    obtain ⟨hfaulted, hretired⟩ := (s.driveFaultLine n (edge != .releases)).countFault_holds n
    refine ⟨_, congrArg Host.Outcome.next (if_pos (by simp [-Fin.getElem_fin, hreset, hline, hfaultable])), ?_⟩
    simp only [State.closeEvent_frame, State.closeEvent_holds, hom, hpins, hholds _ (show Condition.outputFaulted n ≠ _ by simp) (by simp),
      hholds _ (show Condition.outputRetired n ≠ _ by simp) (by simp), State.setOutput_outputs, hfaulted, hretired]
    refine ⟨?_, fun j hj => if_neg (Ne.symm hj), ?_, .rfl, .rfl⟩
    · rw [if_pos trivial]
      exact OutputRecord.faultedAt_eq _ _
    · simp [State.driveFaultLine, hdrives]
  · refine congrArg Host.Outcome.next (if_neg ?_)
    rcases hother with rfl | hline | ⟨hstate, hlast, hnext⟩
    · simp [OutputRecord.faultable]
    · simp [-Fin.getElem_fin, hline]
    · have hno : (s.om.outputs[n]).faultable edge = false := by
        cases edge <;> simp [-Fin.getElem_fin, OutputRecord.faultable, hstate, hlast, hnext]
      simp [-Fin.getElem_fin, hno]
  · refine ⟨_, exec_faultRecoveryEnd hj hs hrecovery, ?_⟩
    have hcr : (s.recoveryEnds n).closeEvent.cr.holds (.outputFaulted n) = (s.endRecovery n).cr.holds (.outputFaulted n) := by
      simp [State.closeEvent_holds, State.recoveryEnds, State.recoverAt]
    have hout : (s.recoveryEnds n).closeEvent.om.outputs[n] = (s.recoveryEnds n).om.outputs[n] := rfl
    have hend := s.endRecovery_output n
    rw [hcr, s.endRecovery_faulted n, hout, s.recoveryEnds_output n]
    refine ⟨?_, rfl, fun hoff => ?_, ?_, fun hq hheld => ?_, fun p hp => ?_⟩
    · by_cases hline : s.pins.faultLines[n] = true
      · rw [if_pos hline] at hend ⊢
        simp only [OutputRecord.recoverAt, hend, hline, OutputRecord.fault_eq, Bool.true_or]
        exact ⟨trivial, trivial, trivial, trivial, fun h => ⟨if_pos h, if_pos h⟩, fun h => ⟨if_neg (not_lt.mpr h), if_neg (not_lt.mpr h)⟩⟩
      · rw [if_neg hline] at hend ⊢
        obtain ⟨hrest, hramp, hrecovery, hload⟩ := (s.om.outputs[n]).toRest_state s.isActive
        obtain ⟨hstate, -, -⟩ := OutputRecord.evaluate_rest (s := s) (n := n) hrest hramp
          ((s.setOutput n (s.om.outputs[n].toRest s.isActive)).goContinue n)
        simp only [OutputRecord.recoverAt, hend, OutputRecord.evaluate_counts, hrecovery, hload]
        exact ⟨hstate, trivial, trivial⟩
    · simp only [OutputRecord.recoverAt] at hoff ⊢
      rw [hoff]
      rfl
    · by_cases hline : s.pins.faultLines[n] = true
      · rw [if_pos hline] at hend
        simp only [OutputRecord.recoverAt, hend, OutputRecord.fault_eq]
        exact ⟨fun h => if_pos h.2, fun h => ⟨hline, not_le.mp fun hge => by rw [if_neg (not_lt.mpr hge)] at h; cases h⟩⟩
      · rw [if_neg hline] at hend
        obtain ⟨hrest, hramp, -, -⟩ := (s.om.outputs[n]).toRest_state s.isActive
        obtain ⟨hstate, -, -⟩ := OutputRecord.evaluate_rest (s := s) (n := n) hrest hramp
          ((s.setOutput n (s.om.outputs[n].toRest s.isActive)).goContinue n)
        simp only [OutputRecord.recoverAt, hend, hstate]
        exact iff_of_false (fun h => hline h.1) (s.restState_ne_faulted n)
    · have hlc : (s.recoveryEnds n).lc = s.lc := by simp [State.recoveryEnds, State.recoverAt]
      obtain ⟨hstatus, hpresence⟩ := State.endRecovery_reports hheld
      have hduePresence : (s.recoveryEnds n).pt.presenceDue = true := by simpa [State.recoveryEnds, State.recoverAt] using hpresence
      obtain ⟨hqueued, hannounced⟩ := State.closeEvent_reports (s := s.recoveryEnds n) (by rw [hlc, hq])
        (by simpa [State.recoveryEnds, State.recoverAt] using hstatus)
      exact ⟨hqueued, fun hfirst => hannounced hduePresence (by simpa [State.recoveryEnds, State.recoverAt] using hfirst)⟩
    · cases p
      case om | cr | lc | pt => exact absurd (by decide) hp
      all_goals simp [State.same, State.recoveryEnds, State.recoverAt]

end Sys2Proof.Proofs
end

section
/-! Proofs about the watchdog (R70, R71): the round that loses the program, with the decoder's bad block and the outputs' stop. -/

namespace Sys2Proof.Machine

/-- The matrix that an event of the coming round begin finds and leaves holds the frame that the event leaves (R121). -/
theorem State.atRoundBegin_frame (s : State) (act : State → State) :
    ∃ before after, s.atRoundBegin act = { act { s with mm := before } with mm := after } ∧ after.frame = (act { s with mm := before }).mm.frame := by
  simp only [State.atRoundBegin]
  split
  · exact ⟨s.mm, (act s).mm, rfl, rfl⟩
  · split
    · exact ⟨_, _, rfl, rfl⟩
    · exact ⟨_, _, rfl, rfl⟩

/-- A MISSING round reaches the decoder of a PACKED program alone. -/
theorem State.presentMissing_pd (s : State) :
    s.presentMissing.pd = if s.sr.programKind = some .packed then (s.pd.onHanded (.block none)).decoder else s.pd := by
  simp only [State.presentMissing]
  split
  next h => simp [h]
  next h => simp [h]
  next h => simp [h]

theorem State.presentMissing_decodeConceal {s : State} (h : s.sr.programKind = some .packed) :
    s.presentMissing.cr.holds .decodeConceal = ((s.pd.onHanded (.block none)).decoder.state == DecoderState.conceal) := by
  simp only [State.presentMissing, h, State.decode_holds_decodeConceal]

theorem State.fireWatchdog_cr (s : State) : s.fireWatchdog.cr = s.cr.put .programLost true := by
  simp only [State.fireWatchdog]
  split <;> simp [State.setCondition]

theorem State.fireWatchdog_frame_silent (s : State) : s.fireWatchdog.mm.frame = Frame.silence := by
  simp only [State.fireWatchdog]
  split <;> simp

theorem State.goCommon_lost {s : State} (h : s.sr.state = .lost) (n : OutputNo) : s.goCommon n = false := by simp [State.goCommon, h]

theorem OutputRecord.cut_state (o : OutputRecord) (active : Bool) :
    (o.cut active).state = if o.state.sounding = true then if active = true then .silent else .off else o.state := by
  simp only [OutputRecord.cut]
  split
  · exact (o.toRest_state active).1
  · rfl

theorem OutputRecord.cut_stays (o : OutputRecord) (active : Bool) :
    (if (o.cut active).state = .rampUp ∨ (o.cut active).state = .playing then { o.cut active with state := .rampDown } else o.cut active)
      = o.cut active := by
  refine if_neg fun h => ?_
  rw [o.cut_state active] at h
  cases hs : o.state <;> cases active <;> simp [hs, OutState.sounding] at h

/-- A cut without the go condition leaves every output as the cut leaves it. -/
theorem State.cut_outputs {s : State} {n : OutputNo} (h : s.goCommon n = false) : s.cut.om.outputs[n] = (s.om.outputs[n]).cut s.isActive := by
  have hrole : ((s.om.outputs[n]).cut s.isActive).roleStatus = (s.om.outputs[n]).roleStatus := by
    simp only [OutputRecord.cut]
    split
    · exact OutputRecord.toRest_role _ _
    · rfl
  have hn : (s.mapOutputs fun _ o => o.cut s.isActive).om.outputs[n] = (s.om.outputs[n]).cut s.isActive := State.mapOutputs_outputs _ _ _
  have hgo : (s.mapOutputs fun _ o => o.cut s.isActive).goCommon n = false := by
    rw [← h]
    simp only [State.goCommon, hn, hrole]
    rfl
  rw [State.cut, State.evalGo_stops hgo, hn, OutputRecord.cut_stays]

/-- The presentation that fires the watchdog, and the go condition after it. -/
def State.losesProgram (s : State) : State := s.presentMissing.fireWatchdog.evalGo

theorem State.losesProgram_sr (s : State) :
    s.losesProgram.sr =
      { s.sr with
        state := .lost
        watchdog := 0
        lastPairs := if s.sr.programKind = some .pcm2 ∧ s.sr.watchdog ≠ 0 then silentPairs else s.sr.lastPairs } := by
  simp only [State.losesProgram, State.evalGo_frame, State.fireWatchdog_sr, State.presentMissing_sr]
  by_cases hkind : s.sr.programKind = some .pcm2
  · by_cases hcount : s.sr.watchdog = 0 <;> simp [hkind, hcount]
  · simp [hkind]

theorem State.losesProgram_outputs (s : State) (n : OutputNo) :
    if s.cl.values.cutMode = .hard then
      s.losesProgram.om.outputs[n].state =
        (if s.om.outputs[n].state.sounding = true then if s.isActive = true then .silent else .off else s.om.outputs[n].state)
    else s.losesProgram.om.outputs[n] =
      (if s.om.outputs[n].state = .rampUp ∨ s.om.outputs[n].state = .playing then { s.om.outputs[n] with state := .rampDown }
      else s.om.outputs[n]) := by
  have hlost : s.presentMissing.fireWatchdog.goCommon n = false := State.goCommon_lost (by simp) n
  have hmode : s.presentMissing.cl.values.cutMode = s.cl.values.cutMode := by simp
  rw [State.losesProgram, State.evalGo_stops hlost]
  split
  next hhard =>
    have hom : s.presentMissing.fireWatchdog.om.outputs[n] = (s.om.outputs[n]).cut s.isActive := by
      simp only [State.fireWatchdog, hmode, hhard, beq_self_eq_true, if_true]
      rw [State.cut_outputs (State.goCommon_lost (by simp) n)]
      simp [State.isActive]
    rw [hom, OutputRecord.cut_stays, OutputRecord.cut_state]
  next hramp =>
    have hom : s.presentMissing.fireWatchdog.om = s.om := by simp [State.fireWatchdog, hramp]
    rw [hom]

theorem State.losesProgram_pd (s : State) :
    s.losesProgram.pd = if s.sr.programKind = some .packed then (s.pd.onHanded (.block none)).decoder else s.pd := by
  simp [State.losesProgram, State.presentMissing_pd]

theorem State.losesProgram_cr (s : State) : s.losesProgram.cr = s.presentMissing.cr.put .programLost true := by
  simp [State.losesProgram, State.fireWatchdog_cr]

/-- With no target held the command is the presentation of the round that loses the program. -/
theorem exec_watchdogExpiry {s : State} (hj : s.joined = true) (hrunning : s.sr.state = .running)
    (hlimit : s.cl.values.watchdogLimit ≤ s.sr.watchdog + 1) (htarget : s.sr.target = none) :
    exec .watchdogExpiry s = .next (s.atRoundBegin State.losesProgram).closeEvent := by
  have hact : (fun x : State => x.presentMissing.fireWatchdog.evalGo.switchIfDown) = fun x => x.losesProgram.switchIfDown := rfl
  have hdown : ∀ mm, (({ s with mm := mm } : State).losesProgram).switchIfDown = ({ s with mm := mm } : State).losesProgram := fun mm =>
    State.switchIfDown_none (by rw [State.losesProgram_sr]; exact htarget)
  refine (congrArg Host.Outcome.next (if_pos (by simp [hj, hrunning, hlimit]))).trans ?_
  rw [hact]
  simp only [State.atRoundBegin, hdown]

end Sys2Proof.Machine

namespace Sys2Proof.Proofs

open Sys2Proof.Machine

/-- Settles O35, by what the presentation of the last MISSING round leaves of each part. -/
theorem watchdogLosesTheProgram : Obligations.WatchdogLosesTheProgram := by
  intro s hj hrunning hlimit htarget
  obtain ⟨before, after, heq, hframe⟩ := s.atRoundBegin_frame State.losesProgram
  refine ⟨_, exec_watchdogExpiry hj hrunning hlimit htarget, ?_⟩
  rw [heq]
  simp only [State.closeEvent_frame, State.closeEvent_holds, State.losesProgram_sr, State.losesProgram_pd, hframe]
  refine ⟨trivial, ?_, ?_, fun hkind => if_neg hkind, fun hkind hconceal hcount => ?_, fun hkind hlocked => ?_,
    fun n => State.losesProgram_outputs { s with mm := before } n, fun p hp => ?_⟩
  · rw [State.losesProgram_cr]
    exact Conditions.put_holds _ _ _
  · simp only [State.losesProgram, State.evalGo_frame]
    exact State.fireWatchdog_frame_silent _
  · rw [if_pos hkind, State.losesProgram_cr, Conditions.put_holds_ne _ _ _ _ (by simp), State.presentMissing_decodeConceal (s := { s with mm := before }) hkind]
    simp only [Decoder.onHanded_bad_conceal hconceal, Decoder.concealAt_of_lt (show 3 < s.pd.conceal + 1 by omega), Decoded.silent]
    exact ⟨trivial, trivial, trivial, trivial, rfl⟩
  · rw [if_pos hkind, Decoder.onHanded_bad_locked hlocked, Decoder.concealAt_of_le (by decide)]
    exact ⟨rfl, rfl⟩
  · cases p
    case sr | om | mm | pd | cr | lc | pt => exact absurd (by decide) hp
    all_goals simp [State.same, State.losesProgram]

end Sys2Proof.Proofs
end

section
/-! Proofs about the fold table of the mix matrix (R117 to R119). -/

namespace Sys2Proof.Machine

theorem code_roleAt (i : Fin 8) : Role.code (roleAt i) = i.val := by
  revert i
  decide

/-- A set that is not empty holds a role. -/
theorem exists_hasRole {set : RoleSet} (h : set ≠ 0) : ∃ role, hasRole set role = true := by
  by_contra hnone
  refine h (BitVec.eq_of_getLsbD_eq fun i hi => ?_)
  have hrole : hasRole set (roleAt ⟨7 - i, by omega⟩) = false := Bool.eq_false_iff.mpr fun hr => hnone ⟨_, hr⟩
  have hi' : 7 - (7 - i) = i := by omega
  rw [hasRole, code_roleAt, hi'] at hrole
  rw [hrole]
  exact BitVec.getLsbD_zero.symm

theorem foldSteps_ne_zero {col : Role} {step : List Role × Coef} (h : step ∈ foldSteps col) : step.2 ≠ .zero := by
  revert step
  cases col <;> decide

/-- Outside DIRECT mode a column whose role the effective set lacks goes to a role of the first step that names one there, or to every role. -/
theorem coefAt_folded {layout effective : RoleSet} {mode : ListeningMode} {col : Role} (hcol : hasRole layout col = true)
    (hmiss : hasRole effective col = false) (hmode : mode ≠ .direct) (hne : effective ≠ 0) :
    ∃ row, hasRole effective row = true ∧ coefAt layout effective mode row col ≠ .zero := by
  cases hstep : (foldSteps col).find? fun step => step.1.any (hasRole effective) with
  | some step =>
    have hnames : step.1.any (hasRole effective) = true :=
      List.find?_some (p := fun step : List Role × Coef => step.1.any (hasRole effective)) hstep
    obtain ⟨row, hmem, hrow⟩ := List.any_eq_true.mp hnames
    have hcoef := foldSteps_ne_zero (List.mem_of_find?_eq_some hstep)
    exact ⟨row, hrow, by simpa [coefAt, hcol, hmiss, hmode, hrow, hstep] using ⟨hmem, hcoef⟩⟩
  | none =>
    obtain ⟨row, hrow⟩ := exists_hasRole hne
    refine ⟨row, hrow, ?_⟩
    simp [coefAt, hcol, hmiss, hmode, hrow, hstep]

end Sys2Proof.Machine

namespace Sys2Proof.Proofs

open Sys2Proof.Machine

/-- Settles O34, by whether the effective set holds the role of the channel. -/
theorem everyChannelReachesARole : Obligations.EveryChannelReachesARole := by
  intro layout effective mode col hcol
  refine ⟨fun hmode hne => ?_, fun hdirect hmiss row => ?_⟩
  · cases hhas : hasRole effective col with
    | true => exact ⟨col, hhas, by simp [coefAt, hcol, hhas]⟩
    | false => exact coefAt_folded hcol hhas hmode hne
  · simp [coefAt, hmiss, hdirect]

end Sys2Proof.Proofs
end

section
/-! Proofs about the tests and answers of requests (R152, R161, R166, R178). -/

namespace Sys2Proof.Machine

/-! ## A request that is refused (R177) -/

/-- The state in which the owner of a request acts: the position has ended, with its message taken. -/
def State.heard (s : State) (cls : BitVec 3) (k : Station) : State := s.endMark.takeMessage { cls := cls, sender := k }

@[simp] theorem State.heard_frame (s : State) (cls : BitVec 3) (k : Station) :
    (s.heard cls k).rt = s.rt ∧ (s.heard cls k).st = s.st ∧ (s.heard cls k).sp = s.sp ∧ (s.heard cls k).sr = s.sr ∧ (s.heard cls k).zt = s.zt
      ∧ (s.heard cls k).ir = s.ir ∧ (s.heard cls k).pd = s.pd ∧ (s.heard cls k).mm = s.mm ∧ (s.heard cls k).om = s.om
      ∧ (s.heard cls k).sm = s.sm ∧ (s.heard cls k).tb = s.tb ∧ (s.heard cls k).ps = s.ps ∧ (s.heard cls k).cl = s.cl
      ∧ (s.heard cls k).cr = s.cr ∧ (s.heard cls k).rc = s.rc ∧ (s.heard cls k).pins = s.pins ∧ (s.heard cls k).freeDraws = s.freeDraws
      ∧ (s.heard cls k).pending = s.pending :=
  ⟨rfl, rfl, rfl, rfl, rfl, rfl, rfl, rfl, rfl, rfl, rfl, rfl, rfl, rfl, rfl, rfl, rfl, rfl⟩

theorem State.heard_same (s : State) (cls : BitVec 3) (k : Station) : ChangesOnly [.lc, .pt] s (s.heard cls k) := by
  intro p hp
  cases p
  case lc | pt => exact absurd (by decide) hp
  all_goals rfl

theorem State.onRequest_heard {s : State} (ht : s.takes = true) {p : List Byte} (ha : addressedTo s.own p = true) (cls : BitVec 3) (k : Station)
    (act : State → State) : s.onRequest cls k p act = (act (s.heard cls k)).closePosition := State.onRequest_takes ht ha cls k act

theorem State.closePosition_changes {s x : State} {parts : List Part} (h : ChangesOnly parts s x) (hlc : Part.lc ∈ parts) (hpt : Part.pt ∈ parts)
    (hcr : Part.cr ∈ parts) : ChangesOnly parts s x.closePosition := by
  intro p hp
  have hx := h p hp
  cases p
  case lc => exact absurd hlc hp
  case pt => exact absurd hpt hp
  case cr => exact absurd hcr hp
  all_goals exact hx

theorem State.closePosition_changes_quiet {s x : State} {parts : List Part} (h : ChangesOnly (.cr :: parts) s x) (hlc : Part.lc ∈ parts)
    (hpt : Part.pt ∈ parts) (hquiet : x.closePosition.cr = s.cr) : ChangesOnly parts s x.closePosition := by
  intro p hp
  have hx := fun hne : p ≠ .cr => h p (by simp [hne, hp])
  cases p
  case lc => exact absurd hlc hp
  case pt => exact absurd hpt hp
  case cr => exact hquiet
  all_goals exact hx nofun

theorem State.refuse_changes (s : State) (cls : BitVec 3) (k : Station) (p : List Byte) (kind : RequestKind) (outcome : ReplyOutcome) :
    ChangesOnly [.lc, .pt, .draws] s ((s.heard cls k).refuse k p kind outcome) := by
  intro q hq
  cases q
  case lc | pt | draws => exact absurd (by decide) hq
  all_goals rfl

theorem ChangesOnly.mono {parts more : List Part} {s t : State} (h : ChangesOnly parts s t) (hsub : parts ⊆ more) : ChangesOnly more s t :=
  fun p hp => h p fun hmem => hp (hsub hmem)

/-- A request whose owner refuses it is answered, and no part but the queue, the peers' silence and the free values changes. -/
theorem State.onRequest_refused {s : State} (ht : s.takes = true) {p : List Byte} (ha : addressedTo s.own p = true) (hroom : s.hasRoom = true)
    {cls : BitVec 3} {k : Station} {act : State → State} {kind : RequestKind} {outcome : ReplyOutcome}
    (hact : act (s.heard cls k) = (s.heard cls k).refuse k p kind outcome) :
    (s.onRequest cls k p act).refused k p kind outcome ∧ ChangesOnly [.lc, .pt, .cr, .draws] s (s.onRequest cls k p act) := by
  rw [State.onRequest_heard ht ha, hact]
  exact ⟨State.closePosition_refused (State.refuse_refused (State.takeMessage_room hroom) _ _ _ _),
    State.closePosition_changes ((State.refuse_changes s cls k p kind outcome).mono (by simp)) (by decide) (by decide) (by decide)⟩

/-! ## The tests of a tuner request (R152) -/

theorem State.tunerTest_fails {s : State} {zone : Option Zone} {inRange : Bool} {outcome : ReplyOutcome}
    (h : if s.cl.values.tunerFitted = false then outcome = .noTuner
      else if zone = none ∨ inRange = false then outcome = .badValue
      else if s.tb.holders ≠ [] ∧ s.tb.holders.head? ≠ zone then outcome = .held
      else s.pt.mode = .standby ∧ outcome = .busy) : s.tunerTest zone inRange = some outcome := by
  cases hfitted : s.cl.values.tunerFitted with
  | false => simpa [State.tunerTest, hfitted, eq_comm] using h
  | true =>
    cases zone with
    | none => simpa [State.tunerTest, hfitted, eq_comm] using h
    | some z =>
      cases inRange with
      | false => simpa [State.tunerTest, hfitted, eq_comm] using h
      | true =>
        by_cases hheld : s.tb.holders ≠ [] ∧ s.tb.holders.head? ≠ some z
        · rw [if_neg (by simp [hfitted]), if_neg (by simp), if_pos hheld] at h
          simp [State.tunerTest, hfitted, hheld.1, hheld.2, h]
        · rw [if_neg (by simp [hfitted]), if_neg (by simp), if_neg hheld] at h
          have hfree : (s.tb.holders != [] && s.tb.holders.head? != some z) = false := by simpa using hheld
          simp [State.tunerTest, hfitted, hfree, h.1, h.2]

theorem State.channelFields_isSome (s : State) (p : List Byte) :
    (s.channelFields p).isSome = (tuneFields p).any fun x => validChannel s.cl.values.plan x.1 x.2 := by
  rw [State.channelFields]
  cases tuneFields p with
  | none => rfl
  | some x => cases h : validChannel s.cl.values.plan x.1 x.2 <;> simp [Option.filter, h]

theorem State.tunerRequest_refuses {α : Type} {s : State} {k : Station} {p : List Byte} {kind : RequestKind} {fields : Option α}
    {outcome : ReplyOutcome} (h : s.tunerTest (requesterZone p) fields.isSome = some outcome) (start : State → Requester → α → State) :
    s.tunerRequest k p kind fields start = s.refuse k p kind outcome := by
  simp only [State.tunerRequest, h]

/-! ## The tests of a store request (R166) -/

theorem State.storeTest_fails {s : State} {e : StoreEntry} {outcome : ReplyOutcome}
    (h : if e.number.val + 1 ≤ s.cl.values.fixedCount then outcome = .protectedPreset
      else if e.kind = .presetStore ∧ s.cl.values.tunerFitted = false then outcome = .noTuner
      else if e.kind = .presetStore ∧ (s.tb.state ≠ .listening ∨ s.tb.op ≠ none) then outcome = .busy
      else 4 ≤ s.ps.queue.length ∧ outcome = .queueFull) : s.storeTest e = some outcome := by
  by_cases hprotected : e.number.val + 1 ≤ s.cl.values.fixedCount
  · rw [if_pos hprotected] at h
    simp [State.storeTest, hprotected, h]
  · rw [if_neg hprotected] at h
    by_cases htuner : e.kind = .presetStore ∧ s.cl.values.tunerFitted = false
    · rw [if_pos htuner] at h
      simp [State.storeTest, hprotected, htuner.1, htuner.2, h]
    · rw [if_neg htuner] at h
      have hfitted : (e.kind == .presetStore && !s.cl.values.tunerFitted) = false := by simpa using htuner
      by_cases hbusy : e.kind = .presetStore ∧ (s.tb.state ≠ .listening ∨ s.tb.op ≠ none)
      · rw [if_pos hbusy] at h
        have hbusy' : (e.kind == .presetStore && !(s.tb.state == .listening && s.tb.op.isNone)) = true := by
          simpa [imp_iff_not_or, Option.isSome_iff_ne_none] using hbusy
        simp only [State.storeTest, hprotected, hfitted, hbusy', h, Bool.false_eq_true, if_false, if_true]
      · rw [if_neg hbusy] at h
        have hidle : (e.kind == .presetStore && !(s.tb.state == .listening && s.tb.op.isNone)) = false := by
          simpa [imp_iff_not_or] using hbusy
        simp only [State.storeTest, hprotected, hfitted, hidle, h.1, h.2, Bool.false_eq_true, if_false, if_true]

theorem State.onStoreEntry_refuses {s : State} {k : Station} {p : List Byte} {kind : RequestKind} {e : StoreEntry} {outcome : ReplyOutcome}
    (h : s.storeTest e = some outcome) : s.onStoreEntry k p kind (some e) = s.refuse k p kind outcome := by
  simp only [State.onStoreEntry, h]

/-- The tests of PRESET STORE and PRESET CLEAR read as tests of the entry that the request names. -/
theorem State.onStoreEntry_fails {s : State} {k : Station} {p : List Byte} {kind : RequestKind} {outcome : ReplyOutcome} {named : Bool}
    {entry : Option StoreEntry}
    (hentry : if requesterZone p = none ∨ presetAt p = none ∨ named = false then entry = none
      else ∃ e number, entry = some e ∧ presetAt p = some number ∧ e.number = number ∧ e.kind = kind)
    (h : if requesterZone p = none ∨ presetAt p = none ∨ named = false then outcome = .badValue
      else if (presetAt p).any (fun n => n.val + 1 ≤ s.cl.values.fixedCount) = true then outcome = .protectedPreset
      else if kind = .presetStore ∧ s.cl.values.tunerFitted = false then outcome = .noTuner
      else if kind = .presetStore ∧ (s.tb.state ≠ .listening ∨ s.tb.op ≠ none) then outcome = .busy
      else 4 ≤ s.ps.queue.length ∧ outcome = .queueFull) :
    s.onStoreEntry k p kind entry = s.refuse k p kind outcome := by
  by_cases hbad : requesterZone p = none ∨ presetAt p = none ∨ named = false
  · rw [if_pos hbad] at hentry h
    rw [hentry, h]
    rfl
  · rw [if_neg hbad] at hentry h
    obtain ⟨e, number, rfl, hpreset, rfl, rfl⟩ := hentry
    exact State.onStoreEntry_refuses (State.storeTest_fails (by simpa [hpreset] using h))

/-! ## A STATUS in answer (R178, R183) -/

/-- A message offered to a queue with room and nothing in flight stands in it. -/
theorem LinkController.offer_stands {lc : LinkController} (hroom : lc.queue.length < 8) (hground : ∀ e ∈ lc.queue, e.inFlight = false) (m : Msg) :
    ∃ e ∈ (lc.offer m).queue, e.msg = m := by
  cases hfind : lc.queue.find? (fun e => coalesces e.msg m) with
  | none =>
    rw [LinkController.offer_enters _ _ hroom (by simpa using hfind)]
    exact ⟨_, (enterQueue_mem _ _ _).mpr (.inl rfl), rfl⟩
  | some e =>
    have hmem := List.mem_of_find?_eq_some hfind
    have hcoalesces : coalesces e.msg m = true := List.find?_some (p := fun e : QueueEntry => coalesces e.msg m) hfind
    simp only [LinkController.offer, hfind, hground e hmem, Bool.false_eq_true, if_false]
    exact ⟨{ e with msg := m }, List.mem_map.mpr ⟨e, hmem, if_pos hcoalesces⟩, rfl⟩

theorem State.reportStatus_changes (s : State) (cls : BitVec 3) (k : Station) :
    ChangesOnly [.cr, .lc, .pt, .draws] s (s.heard cls k).reportStatus := by
  intro q hq
  cases q
  case cr | lc | pt => exact absurd (by decide) hq
  all_goals rfl

theorem State.heard_reports {s : State} (hroom : s.hasRoom = true) (hpresence : s.pt.presenceDue = false) (cls : BitVec 3) (k : Station) :
    (s.heard cls k).reportStatus.closePosition.queued (.status s.statusOf) := by
  have hstands := LinkController.offer_stands (State.takeMessage_room (f := { cls := cls, sender := k }) hroom)
    (LinkController.endPosition_grounded _ _ _ _ _) (.status s.statusOf)
  have hclose : (s.heard cls k).reportStatus.closeEvent.lc = (s.heard cls k).lc.offer (.status s.statusOf) := by
    have hdue : (s.heard cls k).reportStatus.pt.presenceDue = false := hpresence
    simp only [State.closeEvent, hdue, Bool.false_and, Bool.false_eq_true, if_false]
    rfl
  refine LinkController.openPosition_mem.mpr ?_
  rw [hclose]
  exact hstands

end Sys2Proof.Machine

namespace Sys2Proof.Proofs

open Sys2Proof.Machine

/-- Settles O45: the tests read nothing that the take of the request changes. -/
theorem tunerRequestsAreTested : Obligations.TunerRequestsAreTested := by
  intro k p outcome s c kind inRange ht ha hroom hc htest
  have hrefuses : ∀ {α : Type} (fields : Option α) (start : State → Requester → α → State), fields.isSome = inRange →
      (s.heard 2 k).tunerRequest k p kind fields start = (s.heard 2 k).refuse k p kind outcome := fun fields start hfields =>
    State.tunerRequest_refuses (hfields ▸ State.tunerTest_fails (s := s.heard 2 k) htest) start
  simp only [List.mem_cons, List.not_mem_nil, or_false, Prod.mk.injEq] at hc
  rcases hc with ⟨rfl, rfl, hrange⟩ | ⟨rfl, rfl, hrange⟩ | ⟨rfl, rfl, hrange⟩ | ⟨rfl, rfl, hrange⟩
  · exact ⟨_, rfl, State.onRequest_refused ht ha hroom (hrefuses _ _ ((State.channelFields_isSome _ p).trans hrange.symm))⟩
  · exact ⟨_, rfl, State.onRequest_refused ht ha hroom (hrefuses _ _ hrange.symm)⟩
  · exact ⟨_, rfl, State.onRequest_refused ht ha hroom (hrefuses _ _ hrange.symm)⟩
  · exact ⟨_, rfl, State.onRequest_refused ht ha hroom (hrefuses _ _ hrange.symm)⟩

/-- Settles O50, by the tests of the entry that the request names. -/
theorem storeRequestsAreTested : Obligations.StoreRequestsAreTested := by
  intro k p outcome s c kind named stores ht ha hroom hc htest
  simp only [List.mem_cons, List.not_mem_nil, or_false, Prod.mk.injEq] at hc
  rcases hc with ⟨rfl, rfl, rfl, rfl⟩ | ⟨rfl, rfl, rfl, rfl⟩
  · refine ⟨_, rfl, State.onRequest_refused ht ha hroom (State.onStoreEntry_fails (named := (nameAt p).isSome) ?_ (by simpa using htest))⟩
    cases hz : requesterZone p <;> cases hn : presetAt p <;> cases hname : nameAt p <;>
      simp [State.storeEntry, hz, hn, hname, StoreEntry.number, StoreEntry.kind]
  · refine ⟨_, rfl, State.onRequest_refused ht ha hroom (State.onStoreEntry_fails (named := true) ?_ (by simpa using htest))⟩
    cases hz : requesterZone p <;> cases hn : presetAt p <;> simp [clearEntry, hz, hn, StoreEntry.number, StoreEntry.kind]

/-- Settles O54: a query offers its answer with the state as the take finds it. -/
theorem queriesAreAnswered : Obligations.QueriesAreAnswered := by
  intro k p s ht ha hroom hquiet
  obtain ⟨hstatus, hpresence⟩ := State.quiet_iff.mp hquiet
  have hlength := State.takeMessage_room (f := { cls := 2, sender := k }) hroom
  refine ⟨⟨_, congrArg Host.Outcome.next (State.onRequest_heard ht ha _ _ _), ?_⟩, ⟨_, congrArg Host.Outcome.next (State.onRequest_heard ht ha _ _ _), ?_⟩⟩
  · simp only [State.onStatusQuery]
    cases hz : requesterZone p with
    | some z =>
      refine ⟨State.heard_reports hroom hpresence 2 k, State.closePosition_changes_quiet ?_ (by decide) (by decide) (Conditions.quiet_eq hstatus)⟩
      exact State.reportStatus_changes s 2 k
    | none =>
      exact ⟨State.closePosition_refused (State.refuse_refused hlength _ _ _ _), State.closePosition_changes_quiet
        ((State.refuse_changes _ _ _ _ _ _).mono (by simp)) (by decide) (by decide) (Conditions.quiet_eq hstatus)⟩
  · simp only [State.onListRead, State.heard_frame]
    have hrefused : ∀ outcome, ((s.heard 2 k).refuse k p .listRead outcome).closePosition.refused k p .listRead outcome
        ∧ ChangesOnly [.lc, .pt, .draws] s ((s.heard 2 k).refuse k p .listRead outcome).closePosition := fun outcome =>
      ⟨State.closePosition_refused (State.refuse_refused hlength _ _ _ _), State.closePosition_changes_quiet
        ((State.refuse_changes _ _ _ _ _ _).mono (by simp)) (by decide) (by decide) (Conditions.quiet_eq hstatus)⟩
    cases hfitted : s.cl.values.tunerFitted with
    | false => exact hrefused .noTuner
    | true =>
      cases hz : requesterZone p with
      | none => exact hrefused .badValue
      | some z =>
        cases hl : listReadFields p with
        | none => exact hrefused .badValue
        | some x =>
          refine ⟨State.closePosition_queued rfl rfl (State.offer_queued hlength rfl rfl), State.closePosition_changes_quiet
            (fun q hq => ?_) (by decide) (by decide) (Conditions.quiet_eq hstatus)⟩
          cases q
          case lc | pt => exact absurd (by decide) hq
          all_goals rfl

end Sys2Proof.Proofs
end

section
/-! Proofs about ROLE MAP (R90, R91). -/

namespace Sys2Proof.Machine

theorem OutputRecord.evaluate_decay (o : OutputRecord) (start continues : Bool) : (o.evaluate start continues).decay = o.decay := by
  simp only [OutputRecord.evaluate]
  (repeat' split) <;> rfl

theorem OutputRecord.evaluate_ne_retired {o : OutputRecord} (h : o.state ≠ .retired) (start continues : Bool) :
    (o.evaluate start continues).state ≠ .retired := by
  cases hs : o.state with
  | retired => exact absurd hs h
  | off | faulted => simp [OutputRecord.evaluate, hs]
  | silent | rampDown => cases start <;> simp [OutputRecord.evaluate, hs]
  | rampUp | playing => cases continues <;> simp [OutputRecord.evaluate, hs]

theorem State.countFaultIf_om (s : State) (n : OutputNo) (b : Bool) :
    (s.countFaultIf n b).om = (s.setOutput n (if b = true then s.om.outputs[n].fault else s.om.outputs[n])).om := by
  cases b with
  | true => exact State.countFault_om s n
  | false => simp [State.countFaultIf, State.setOutput]

/-- An output after an accepted ROLE MAP: its counts are 0, an output that was RETIRED is at rest, and a fault is counted there where the station is
ACTIVE and the line asserted. -/
def State.restoredOutput (s : State) (n : OutputNo) : OutputRecord :=
  let cleared := { s.om.outputs[n] with overload := 0, decay := 0 }
  if s.om.outputs[n].state = .retired then
    if (s.isActive && s.pins.faultLines[n]) = true then (cleared.toRest s.isActive).fault else cleared.toRest s.isActive
  else cleared

theorem State.restoreOutput_om (s : State) (n : OutputNo) : (s.restoreOutput n).om = (s.setOutput n (s.restoredOutput n)).om := by
  simp only [State.restoreOutput, State.restoredOutput, beq_iff_eq]
  split
  · rw [State.countFaultIf_om, State.setOutput_outputs, if_pos rfl]
    simp [State.setOutput]
  · rfl

theorem State.restoredOutput_counts (s : State) (n : OutputNo) :
    (s.restoredOutput n).overload =
        (if s.om.outputs[n].state = .retired ∧ s.isActive = true ∧ s.pins.faultLines[n] = true then 1 else 0)
      ∧ (s.restoredOutput n).decay = 0 ∧ (s.restoredOutput n).state ≠ .retired := by
  by_cases hretired : s.om.outputs[n].state = .retired
  · cases hactive : s.isActive with
    | true =>
      cases hline : s.pins.faultLines[n] <;>
        simp [-Fin.getElem_fin, State.restoredOutput, hretired, hactive, hline, OutputRecord.toRest, OutputRecord.toSilent, OutputRecord.fault_eq]
    | false => simp [-Fin.getElem_fin, State.restoredOutput, hretired, hactive, OutputRecord.toRest, OutputRecord.toOff]
  · simp [-Fin.getElem_fin, State.restoredOutput, hretired]

theorem State.restoreOutput_holds (s : State) (n : OutputNo) : (s.restoreOutput n).cr.holds (.outputRetired n) = false := by
  have hcleared : (s.setCondition (.outputRetired n) false).cr.holds (.outputRetired n) = false := Conditions.put_holds _ _ _
  simp only [State.restoreOutput, State.countFaultIf]
  split
  · split
    · obtain ⟨-, -, -, hload⟩ := ({ s.om.outputs[n] with overload := 0, decay := 0 } : OutputRecord).toRest_state s.isActive
      refine Bool.eq_false_iff.mpr fun h => ?_
      rw [(State.countFault_holds _ n).2, State.setOutput_outputs, if_pos rfl, hload] at h
      cases (Nat.le_of_succ_le_succ h)
    · exact hcleared
  · exact hcleared

theorem State.setRoleStatuses_outputs (s : State) (n : OutputNo) :
    s.setRoleStatuses.om.outputs[n] = { s.om.outputs[n] with roleStatus := s.roleStatusOf n } := by
  have heq : s.setRoleStatuses.om = (s.mapOutputs fun n o => { o with roleStatus := s.roleStatusOf n }).om := by
    simp [State.setRoleStatuses, State.eachOutput]
  rw [heq, State.mapOutputs_outputs]

/-- The state in which a ROLE MAP has set its override. -/
def State.overridden (s : State) (n : OutputNo) (role : Option Role) : State :=
  { s with cl := { s.cl with overrides := s.cl.overrides.set n (some role) } }

/-- What an accepted ROLE MAP leaves of each output, beside its role status and the go condition. -/
theorem State.mapRole_outputs (s : State) (requester : Requester) (n j : OutputNo) (role : Option Role) :
    ∃ start continues status, (s.mapRole requester n role).om.outputs[j] =
      ({ (if j = n then s.restoredOutput n else s.om.outputs[j]) with roleStatus := status } : OutputRecord).evaluate start continues := by
  have hrestored : ((s.overridden n role).restoreOutput n).om.outputs[j] = if j = n then s.restoredOutput n else s.om.outputs[j] := by
    rw [State.restoreOutput_om, State.setOutput_outputs]
    by_cases hj : j = n
    · rw [if_pos hj, if_pos hj.symm]
      rfl
    · rw [if_neg hj, if_neg (Ne.symm hj)]
      rfl
  have hroles := State.setRoleStatuses_outputs ((s.overridden n role).restoreOutput n) j
  rw [hrestored] at hroles
  have hgo := State.evalGo_outputs ((s.overridden n role).restoreOutput n).setRoleStatuses.announce j
  exact ⟨_, _, _, hgo.trans (congrArg (fun o : OutputRecord => o.evaluate _ _) hroles)⟩

theorem State.mapRole_holds (s : State) (requester : Requester) (n : OutputNo) (role : Option Role) :
    (s.mapRole requester n role).cr.holds (.outputRetired n) = false := by
  have hroles := State.setRoleStatuses_holds ((s.overridden n role).restoreOutput n) (.outputRetired n)
  exact hroles.trans (State.restoreOutput_holds _ n)

/-- What an accepted ROLE MAP leaves of the overload counts, of the decay and of the retirement (R91). -/
theorem State.mapRole_counts (s : State) (requester : Requester) (n : OutputNo) (role : Option Role) :
    (s.mapRole requester n role).om.outputs[n].overload =
        (if s.om.outputs[n].state = .retired ∧ s.isActive = true ∧ s.pins.faultLines[n] = true then 1 else 0)
      ∧ (s.mapRole requester n role).om.outputs[n].decay = 0 ∧ (s.mapRole requester n role).om.outputs[n].state ≠ .retired
      ∧ ∀ j : OutputNo, j ≠ n → (s.mapRole requester n role).om.outputs[j].overload = s.om.outputs[j].overload := by
  obtain ⟨start, continues, status, hn⟩ := s.mapRole_outputs requester n n role
  obtain ⟨hload, hdecay, hstate⟩ := s.restoredOutput_counts n
  have hevaluated := OutputRecord.evaluate_ne_retired (o := { s.restoredOutput n with roleStatus := status }) hstate start continues
  rw [if_pos rfl] at hn
  rw [hn, (OutputRecord.evaluate_counts _ _ _).2, OutputRecord.evaluate_decay]
  refine ⟨hload, hdecay, hevaluated, fun j hj => ?_⟩
  obtain ⟨start', continues', status', hother⟩ := s.mapRole_outputs requester n j role
  rw [hother, if_neg hj, (OutputRecord.evaluate_counts _ _ _).2]

theorem State.mapRole_cl (s : State) (requester : Requester) (n : OutputNo) (role : Option Role) :
    (s.mapRole requester n role).cl = { s.cl with overrides := s.cl.overrides.set n (some role) } := by
  simp [State.mapRole]

theorem State.mapRole_replied {s : State} (h : s.lc.queue.length < 8) (requester : Requester) (n : OutputNo) (role : Option Role) :
    (s.mapRole requester n role).replied requester .roleMap .done none :=
  State.offerReply_replied (by simpa using h) _ _ _ _

theorem State.mapRole_changes (s : State) (requester : Requester) (n : OutputNo) (role : Option Role) :
    ChangesOnly [.lc, .pt, .om, .cl, .cr] s (s.mapRole requester n role) := by
  intro q hq
  cases q
  case lc | pt | om | cl | cr => exact absurd (by decide) hq
  all_goals simp [State.same, State.mapRole]

theorem ChangesOnly.trans {parts : List Part} {s t u : State} (h : ChangesOnly parts s t) (k : ChangesOnly parts t u) : ChangesOnly parts s u := by
  intro q hq
  have ht := h q hq
  have hu := k q hq
  cases q <;> exact hu.trans ht

theorem State.onRoleMap_some {s : State} {k : Station} {p : List Byte} {z : Zone} {n : OutputNo} {role : Option Role}
    (h : roleMapFields p = some (z, n, role)) : s.onRoleMap k p = s.mapRole { station := k, zone := z } n role := by
  simp only [State.onRoleMap, h]

theorem State.onRoleMap_none {s : State} {k : Station} {p : List Byte} (h : roleMapFields p = none) :
    s.onRoleMap k p = s.refuse k p .roleMap .badValue := by
  simp only [State.onRoleMap, h]

end Sys2Proof.Machine

namespace Sys2Proof.Proofs

open Sys2Proof.Machine

/-- Settles O30, by whether the payload is in range. -/
theorem roleMapsOverride : Obligations.RoleMapsOverride := by
  intro k p s ht ha hroom
  have hlength := State.takeMessage_room (f := { cls := 1, sender := k }) hroom
  refine ⟨_, congrArg Host.Outcome.next (State.onRequest_heard ht ha _ _ _), ?_⟩
  split
  next z n role hf =>
    rw [State.onRoleMap_some hf]
    obtain ⟨hload, hdecay, hstate, hothers⟩ := (s.heard 1 k).mapRole_counts { station := k, zone := z } n role
    have hcl := (s.heard 1 k).mapRole_cl { station := k, zone := z } n role
    have hholds := (s.heard 1 k).mapRole_holds { station := k, zone := z } n role
    have hreplied := (State.mapRole_replied hlength { station := k, zone := z } n role)
    have hchanges := ((s.heard_same 1 k).mono (more := [.lc, .pt, .om, .cl, .cr, .draws]) (by simp)).trans
      (((s.heard 1 k).mapRole_changes { station := k, zone := z } n role).mono (by simp))
    change ((s.heard 1 k).mapRole { station := k, zone := z } n role).replied { station := k, zone := z } .roleMap .done none at hreplied
    generalize (s.heard 1 k).mapRole { station := k, zone := z } n role = x at *
    exact ⟨⟨hcl, hload, hdecay, hstate, hholds, hothers, State.closePosition_queued rfl rfl hreplied⟩,
      State.closePosition_changes hchanges (by decide) (by decide) (by decide)⟩
  next hf =>
    rw [State.onRoleMap_none hf]
    exact ⟨⟨State.closePosition_refused (State.refuse_refused hlength _ _ _ _), rfl, rfl⟩,
      State.closePosition_changes ((State.refuse_changes _ _ _ _ _ _).mono (by simp)) (by decide) (by decide) (by decide)⟩

end Sys2Proof.Proofs
end

section
/-! Proofs about the digital inputs (chapter 6): their clocks, the sync watch and the alignment buffer. -/

namespace Sys2Proof.Machine

/-! ## A record written (R98, R102, R103) -/

theorem State.putInput_get (s : State) (id : InputId) (r : InputRecord) :
    (s.putInput id r).ir.get id =
      { r with changed := (s.ir.get id).changed || r.state != (s.ir.get id).state, history := r.historyAfter (s.ir.get id) } := by
  rw [State.putInput_ir, Inputs.get_set]

theorem State.putInput_get_ne (s : State) {id j : InputId} (h : j ≠ id) (r : InputRecord) : (s.putInput id r).ir.get j = s.ir.get j := by
  rw [State.putInput_ir, Inputs.get_set_ne _ h]

theorem State.putInput_unsupported (s : State) (id : InputId) (r : InputRecord) :
    (s.putInput id r).cr.holds (.inputUnsupported id) = (r.state == .unsupported) := by
  simp only [State.putInput, State.followKind_holds _ _ _ _ (show ∀ x, Condition.inputUnsupported id ≠ .streamNoSlot x by simp),
    State.announceIf_frame]
  exact Conditions.put_holds _ _ _

theorem State.putInput_changes (s : State) (id : InputId) (r : InputRecord) :
    ChangesOnly [.ir, .sp, .lc, .pt, .cr] s (s.putInput id r).closeEvent := by
  intro p hp
  cases p
  case ir | sp | lc | pt | cr => exact absurd (by decide) hp
  all_goals simp [State.same]

theorem InputRecord.historyAfter_silent {r old : InputRecord} (h : r.state ≠ .pcm ∨ old.state ≠ .pcm) :
    r.historyAfter old = ConverterHistory.silence := by
  refine if_neg ?_
  simpa [imp_iff_not_or] using h

theorem InputRecord.historyAfter_moved {r old : InputRecord} (h : r.state ≠ old.state) : r.historyAfter old = ConverterHistory.silence :=
  InputRecord.historyAfter_silent (not_and_or.mp fun ⟨hr, hold⟩ => h (hr.trans hold.symm))

theorem State.atInput_powered {s : State} {id : InputId} (hpowered : s.inputsPowered = true) (hclock : (s.ir.get id).state ≠ .noSignal)
    (f : InputRecord → InputRecord) : s.atInput id f = s.putInput id (f (s.ir.get id)) := if_pos (by simp [hpowered, hclock])

/-! ## Steps of the record (R95, R96, R97) -/

theorem InputRecord.acquired_state {r : InputRecord} {held : RateClass} (h : r.rateClass = some held) :
    r.acquired.state =
      if held = .other then .unsupported
      else if r.syncRun = 2 then if held = .r48 then .packed else .unsupported
      else .pcm := by
  cases held <;> by_cases hrun : r.syncRun = 2 <;> simp [InputRecord.acquired, h, hrun]

/-- The counter of a sync pattern follows the last one. -/
theorem InputRecord.seePattern_run (r : InputRecord) (counter : Byte) :
    (r.seePattern counter).syncRun = if r.lastCounter = some (counter - 1) then min (r.syncRun + 1) 2 else 1 := by
  have hnext : (r.lastCounter.any fun c => counter == c + 1) = true ↔ r.lastCounter = some (counter - 1) := by
    cases r.lastCounter with
    | none => simp
    | some c =>
      simp only [Option.any_some, beq_iff_eq, Option.some.injEq, eq_sub_iff_add_eq]
      exact eq_comm
  simp only [InputRecord.seePattern, hnext]

theorem InputRecord.seePattern_state (r : InputRecord) (counter : Byte) :
    (r.seePattern counter).state =
      if (r.seePattern counter).syncRun = 2 ∧ r.syncRun ≠ 2 ∧ r.state = .pcm then if r.rateClass = some .r48 then .packed else .unsupported
      else r.state := by
  simp only [InputRecord.seePattern, Bool.and_eq_true, beq_iff_eq, bne_iff_ne, ne_eq, and_assoc]

theorem InputRecord.loseSync_state (r : InputRecord) :
    r.loseSync.state = if r.state = .packed ∨ r.state = .unsupported ∧ r.rateClass ≠ some .other then .pcm else r.state := by
  cases hs : r.state with
  | unsupported => by_cases hother : r.rateClass = some .other <;> simp [InputRecord.loseSync, hs, hother]
  | noSignal | acquiring | pcm | packed => simp [InputRecord.loseSync, hs]

end Sys2Proof.Machine

namespace Sys2Proof.Proofs

open Sys2Proof.Machine

/-- Settles O31, by the record that each event writes. -/
theorem inputClocksAreFollowed : Obligations.InputClocksAreFollowed := by
  intro id s hpowered
  refine ⟨fun hstate => ?_, fun hstate => ?_, fun held hstate hclass hsteady => ?_⟩
  · have hget := (s.driveClock id true).putInput_get id { InputRecord.reset with state := .acquiring, clockGap := true }
    refine ⟨_, congrArg Host.Outcome.next (if_pos (by simp [hpowered, hstate])), ?_⟩
    simp only [State.closeEvent_frame, hget]
    refine ⟨trivial, rfl, rfl, by simp [State.driveClock], fun j hj => State.putInput_get_ne _ hj _, fun p hp => ?_⟩
    cases p
    case ir | sp | lc | pt | cr | pins => exact absurd (by decide) hp
    all_goals simp [State.same]
  · have hget := (s.driveClock id false).putInput_get id { InputRecord.reset with clockGap := true }
    have hexec : (s.driveClock id false).atInput id (fun _ => { InputRecord.reset with clockGap := true }) =
        (s.driveClock id false).putInput id { InputRecord.reset with clockGap := true } := State.atInput_powered (s := s.driveClock id false) hpowered hstate _
    refine ⟨_, congrArg Host.Outcome.next (congrArg State.closeEvent hexec), ?_⟩
    simp only [State.closeEvent_frame, hget]
    refine ⟨rfl, rfl, rfl, rfl, rfl, rfl, rfl, rfl, InputRecord.historyAfter_silent (.inl nofun), by simp [State.driveClock],
      fun j hj => State.putInput_get_ne _ hj _, fun p hp => ?_⟩
    cases p
    case ir | sp | lc | pt | cr | pins => exact absurd (by decide) hp
    all_goals simp [State.same]
  · have hget := s.putInput_get id ((s.ir.get id).ahead InputRecord.acquired)
    refine ⟨_, congrArg Host.Outcome.next (if_pos (by simp [hpowered, hstate, hclass, hsteady])), ?_⟩
    simp only [State.closeEvent_frame, State.closeEvent_holds, hget, State.putInput_unsupported, beq_iff_eq]
    exact ⟨InputRecord.acquired_state hclass, rfl, hclass, rfl, trivial, InputRecord.historyAfter_silent (.inr (by simp [hstate])),
      fun j hj => State.putInput_get_ne _ hj _, State.putInput_changes _ _ _⟩

/-- Settles O32, by the record that each event writes. -/
theorem syncIsWatched : Obligations.SyncIsWatched := by
  intro id s hpowered hclock
  have hat := fun f => State.atInput_powered (s := s) (id := id) hpowered hclock f
  refine ⟨fun counter => ?_, fun hlast hseen => ?_, fun block hprogress => ?_⟩
  · have hget := s.putInput_get id ((s.ir.get id).seePattern counter)
    refine ⟨_, congrArg Host.Outcome.next (congrArg State.closeEvent (hat _)), ?_⟩
    simp only [State.closeEvent_frame, hget]
    exact ⟨rfl, rfl, InputRecord.seePattern_run _ _, InputRecord.seePattern_state _ _, rfl, rfl, fun hmoved => InputRecord.historyAfter_moved hmoved,
      fun j hj => State.putInput_get_ne _ hj _, State.putInput_changes _ _ _⟩
  · have hget := s.putInput_get id ((s.ir.get id).ahead InputRecord.loseSync)
    refine ⟨_, congrArg Host.Outcome.next ((if_pos (by simp [hlast, hseen])).trans (congrArg State.closeEvent (hat _))), ?_⟩
    simp only [State.closeEvent_frame, hget]
    exact ⟨rfl, rfl, rfl, rfl, InputRecord.loseSync_state _, fun hmoved => InputRecord.historyAfter_moved hmoved,
      fun j hj => State.putInput_get_ne _ hj _, State.putInput_changes _ _ _⟩
  · have hget := s.putInput_get id ((s.ir.get id).complete block)
    refine ⟨_, congrArg Host.Outcome.next (congrArg State.closeEvent ((hat _).trans (congrArg (s.putInput id) (if_pos hprogress)))), ?_⟩
    simp only [State.closeEvent_frame, hget]
    exact ⟨rfl, rfl, rfl, fun j hj => State.putInput_get_ne _ hj _, State.putInput_changes _ _ _⟩

end Sys2Proof.Proofs
end

section
/-! Proofs about the end of reset, the configuration, recovery and the join window (chapter 12). -/

namespace Sys2Proof.Machine

/-! ## The end of reset (R186, R187) -/

/-- A cause ends while another holds on, or while none holds: no part but the causes of reset changes. -/
theorem exec_leaveReset_held {s : State} {cause : ResetCause} (h : (s.rc.set cause false).holds = true) (straps : Station) :
    exec (.leaveReset cause straps) s = .next { s with rc := s.rc.set cause false } :=
  congrArg Host.Outcome.next (if_neg (by simp [h]))

theorem exec_leaveReset_last {s : State} {cause : ResetCause} (hheld : s.rc.holds = true) (h : (s.rc.set cause false).holds = false)
    (straps : Station) : exec (.leaveReset cause straps) s = .next (({ s with rc := s.rc.set cause false } : State).leaveReset straps) :=
  congrArg Host.Outcome.next (if_pos (by simp [hheld, h]))

theorem State.leaveReset_muteLine (s : State) (straps : Station) : (s.leaveReset straps).cr.holds .muteLine = s.pins.mute :=
  Conditions.put_holds Conditions.reset .muteLine s.pins.mute

theorem State.leaveReset_changes (s : State) (rc : ResetControl) (straps : Station) :
    ChangesOnly [.rc, .cl, .cr] s (({ s with rc := rc } : State).leaveReset straps) := by
  intro p hp
  cases p
  case rc | cl | cr => exact absurd (by decide) hp
  all_goals rfl

theorem State.configure_changes (s : State) (values : Option ConfigValues) :
    ChangesOnly [.cl, .rt, .tb, .cr, .lc, .pt] s (s.configure values).closeEvent := by
  intro p hp
  cases p
  case cl | rt | tb | cr | lc | pt => exact absurd (by decide) hp
  all_goals rfl

/-! ## The end of recovery (R165, R175, R176) -/

theorem State.recover_ends {s : State} (hq : s.ps.queue = []) :
    ∃ sectors engine remaining, (s.setStore s.ps.recover).engineBegin.ps =
        { s.ps.recover with sectors := sectors, engine := engine, remaining := remaining }
      ∧ (s.ps.recover.compaction = none → sectors = s.ps.sectors) := by
  cases hc : s.ps.recover.compaction with
  | none =>
    refine ⟨s.ps.sectors, s.ps.engine, s.ps.remaining, ?_, fun _ => rfl⟩
    simp only [State.engineBegin]
    split
    · simp only [State.setStore, hc]
      rw [show s.ps.recover.queue = [] from hq]
      simp only [State.takeEntries, State.setStore, hc]
      rfl
    · rfl
  | some c =>
    simp only [State.engineBegin]
    split
    · refine ⟨(s.ps.recover.continueCompaction c).sectors, (s.ps.recover.continueCompaction c).engine,
        (s.ps.recover.continueCompaction c).remaining, ?_, nofun⟩
      simp only [State.setStore, hc]
      rfl
    · exact ⟨_, _, _, rfl, nofun⟩

/-! ## The entry to JOINING (R66, R93, R188) -/

/-- In the join window the publisher offers nothing. -/
theorem State.settle_joining {s : State} (h : s.pt.mode = .joining) (src : Source) (reclaims : Bool) : s.settle src reclaims = s :=
  if_neg (by simp [State.publishes, h])

theorem State.powerInput_joining {s : State} (h : s.pt.mode = .joining) (id : InputId) : (s.powerInput id).lc = s.lc := by
  simp only [State.powerInput]
  split
  · simp only [State.putInput, State.followKind]
    split
    · simp
    · split
      · simp
      · rw [State.settle_joining (by simpa using h)]
        simp
  · rfl

theorem State.powerInput_get {s : State} {id : InputId} (h : s.pins.clock id = true) : ((s.powerInput id).ir.get id).state = .acquiring := by
  rw [State.powerInput, if_pos h, State.putInput_get]

theorem State.powerInput_get_ne (s : State) {id j : InputId} (h : j ≠ id) : (s.powerInput id).ir.get j = s.ir.get j := by
  simp only [State.powerInput]
  split
  · exact State.putInput_get_ne _ h _
  · rfl

theorem State.startJoin_lc (s : State) : s.startJoin.lc = s.lc := by
  simp only [State.startJoin, State.reportStatus_frame]
  rw [State.powerInput_joining (by simp), State.powerInput_joining rfl]

theorem State.startJoin_input {s : State} {id : InputId} (h : s.pins.clock id = true) : (s.startJoin.ir.get id).state = .acquiring := by
  simp only [State.startJoin, State.reportStatus_frame]
  cases id with
  | a =>
    rw [State.powerInput_get_ne _ (by simp)]
    exact State.powerInput_get h
  | b => exact State.powerInput_get (by simpa using h)

/-! ## The end of the join window (R43, R190) -/

theorem State.endWindow_mode (s : State) : s.endWindow.pt.mode = s.derivedMode := by
  have hmode : s.closeWindow.derivedMode = s.derivedMode := rfl
  simp [State.endWindow, State.eachSource, State.changeMode_mode, hmode]

theorem State.endWindow_joinCount (s : State) : s.endWindow.pt.joinCount = 80 := by
  simp [State.endWindow, State.eachSource, State.closeWindow]

theorem State.endWindow_om (s : State) : s.endWindow.om = (s.closeWindow.changeMode s.derivedMode).om := by
  have hmode : s.closeWindow.derivedMode = s.derivedMode := rfl
  simp [State.endWindow, State.eachSource, hmode]

theorem State.activateOutput_other (s : State) {n j : OutputNo} (h : n ≠ j) : (s.activateOutput n).om.outputs[j] = s.om.outputs[j] := by
  simp only [State.activateOutput, State.countFaultIf]
  (repeat' split) <;> simp only [State.setCondition_frame, State.countFault_om, State.setOutput_outputs, if_neg h]

theorem State.activateOutput_silent {s : State} {n : OutputNo} (hoff : s.om.outputs[n].state = .off) (hload : s.om.outputs[n].overload < 4)
    (hline : s.pins.faultLines[n] = false) : (s.activateOutput n).om.outputs[n].state = .silent := by
  have hload' : (s.om.outputs[n].overload == 4) = false := beq_false_of_ne (by omega)
  simp only [State.activateOutput, hoff, hload', hline, State.countFaultIf, beq_self_eq_true, if_true, Bool.false_eq_true, if_false,
    State.setOutput_outputs]
  rfl

/-- An operation that changes its own output alone reaches each output once, in a state that has left it so far. -/
theorem State.eachOutput_reaches {f : State → OutputNo → State} (hkeep : ∀ (x : State) (i j : OutputNo), i ≠ j → (f x i).om.outputs[j] = x.om.outputs[j])
    (hpins : ∀ (x : State) (i : OutputNo), (f x i).pins = x.pins) (s : State) (n : OutputNo) :
    ∃ x : State, (s.eachOutput f).om.outputs[n] = (f x n).om.outputs[n] ∧ x.om.outputs[n] = s.om.outputs[n] ∧ x.pins = s.pins := by
  match n with
  | 0 => exact ⟨s, by rw [State.eachOutput, hkeep _ 3 0 (by decide), hkeep _ 2 0 (by decide), hkeep _ 1 0 (by decide)], rfl, rfl⟩
  | 1 => exact ⟨f s 0, by rw [State.eachOutput, hkeep _ 3 1 (by decide), hkeep _ 2 1 (by decide)], hkeep _ 0 1 (by decide), hpins _ _⟩
  | 2 =>
    exact ⟨f (f s 0) 1, by rw [State.eachOutput, hkeep _ 3 2 (by decide)],
      (hkeep _ 1 2 (by decide)).trans (hkeep _ 0 2 (by decide)), (hpins _ _).trans (hpins _ _)⟩
  | 3 =>
    exact ⟨f (f (f s 0) 1) 2, rfl, (hkeep _ 2 3 (by decide)).trans ((hkeep _ 1 3 (by decide)).trans (hkeep _ 0 3 (by decide))),
      (hpins _ _).trans ((hpins _ _).trans (hpins _ _))⟩

/-- Each output is activated once: one that is OFF without a fault enters SILENT. -/
theorem State.activate_silent {s : State} {n : OutputNo} (hoff : s.om.outputs[n].state = .off) (hload : s.om.outputs[n].overload < 4)
    (hline : s.pins.faultLines[n] = false) : (s.eachOutput State.activateOutput).om.outputs[n].state = .silent := by
  obtain ⟨x, heq, hom, hpins⟩ := State.eachOutput_reaches (f := State.activateOutput) (fun x _ _ h => x.activateOutput_other h)
    (fun x _ => by simp) s n
  rw [heq]
  exact State.activateOutput_silent (hom ▸ hoff) (hom ▸ hload) (hpins ▸ hline)

/-- A SILENT output stays SILENT at an evaluation, or starts to ramp up. -/
theorem State.evalGo_silent {s : State} {n : OutputNo} (h : s.om.outputs[n].state = .silent) :
    s.evalGo.om.outputs[n].state = .silent ∨ s.evalGo.om.outputs[n].state = .rampUp := by
  rw [State.evalGo_outputs]
  cases s.goStart n <;> simp [-Fin.getElem_fin, OutputRecord.evaluate, h]

theorem State.checkDecoder_om (s : State) : s.checkDecoder.om = s.om := by simp

theorem State.endWindow_activates {s : State} (hjoining : s.pt.mode = .joining) (hactive : s.derivedMode = .active) {n : OutputNo}
    (hoff : s.om.outputs[n].state = .off) (hload : s.om.outputs[n].overload < 4) (hline : s.pins.faultLines[n] = false) :
    s.endWindow.om.outputs[n].state = .silent ∨ s.endWindow.om.outputs[n].state = .rampUp := by
  rw [State.endWindow_om, hactive, State.changeMode, if_neg (by simp [hjoining])]
  simp only [State.enterMode, hjoining, State.closeWindow_peers]
  refine State.evalGo_silent ?_
  rw [State.checkDecoder_om]
  exact State.activate_silent hoff hload hline

end Sys2Proof.Machine

namespace Sys2Proof.Proofs

open Sys2Proof.Machine

/-- Settles O56, by whether the cause that ends is the last, and by whether the image is valid. -/
theorem resetEndsAndTheImageIsRead : Obligations.ResetEndsAndTheImageIsRead := by
  intro s
  refine ⟨fun straps hp hn => ?_, fun straps hp hn => ?_, fun cause straps hp hn => ?_, fun image hread => ?_, fun image hreset hread => ?_⟩
  · refine ⟨_, exec_leaveReset_last (by simp [ResetControl.holds, hp]) (by simp [ResetControl.holds, ResetControl.set, hn]) straps, ?_, rfl,
      State.leaveReset_muteLine _ _, State.leaveReset_changes _ _ _⟩
    simp [State.inReset, State.leaveReset, ResetControl.set, hn]
  · refine ⟨_, exec_leaveReset_last (by simp [ResetControl.holds, hn]) (by simp [ResetControl.holds, ResetControl.set, hp]) straps, ?_, rfl,
      State.leaveReset_muteLine _ _, State.leaveReset_changes _ _ _⟩
    simp [State.inReset, State.leaveReset, ResetControl.set, hp]
  · have hholds : (s.rc.set cause false).holds = true := by cases cause <;> simp [ResetControl.holds, ResetControl.set, hp, hn]
    refine ⟨_, exec_leaveReset_held hholds straps, hholds, fun p hp => ?_⟩
    cases p
    case rc => exact absurd (by decide) hp
    all_goals rfl
  · exact congrArg Host.Outcome.next (if_neg (by simp [hread]))
  · refine ⟨_, congrArg Host.Outcome.next (if_pos (by simp [hreset, hread])), rfl, ?_, rfl, rfl, rfl, State.configure_changes _ _⟩
    cases readImage image with
    | some v => exact ⟨rfl, rfl, Conditions.put_holds _ _ _⟩
    | none => exact ⟨rfl, fun n => by simp [State.configure, ConfigValues.default], rfl, rfl, rfl, rfl, rfl, rfl, rfl, rfl, rfl, Conditions.put_holds _ _ _⟩

/-- Settles O57, by the store that recovery finds, and by the entry to JOINING, at which the publisher offers nothing. -/
theorem recoveryEndsAndJoiningStarts : Obligations.RecoveryEndsAndJoiningStarts := by
  intro s hreset
  refine ⟨fun hended hq hc => ?_, fun himage hended hjoined hq => ?_⟩
  · obtain ⟨sectors, engine, remaining, hps, hsectors⟩ := State.recover_ends hq
    refine ⟨_, congrArg Host.Outcome.next (if_pos (by simp [hreset, hended])), ?_⟩
    simp only [State.closeEvent_frame, hps]
    refine ⟨rfl, rfl, ?_, fun p hp => ?_⟩
    · cases ha : activeSector s.ps.sectors with
      | some a =>
        have hnone : s.ps.recover.compaction = none := by simp [PresetStore.recover, ha]
        exact ⟨fun n => by simp [PresetStore.recover, buildIndex, ha], hnone, hsectors hnone⟩
      | none => exact ⟨fun n => by simp [PresetStore.recover, buildIndex, ha], by simp [PresetStore.recover, ha, newCompaction, spareOf]⟩
    · cases p
      case ps | lc | cr | pt => exact absurd (by decide) hp
      all_goals simp [State.same]
  · have hreports := (State.closeEvent_reports (s := s.startJoin) (by rw [State.startJoin_lc, hq]) rfl).1
    refine ⟨_, congrArg Host.Outcome.next (if_pos (by simp [hreset, himage, hended, hjoined])), ?_, ?_, ?_, ?_, fun id hid => State.startJoin_input hid,
      hreports, fun p hp => ?_⟩
    · simpa [State.joined, State.inReset, State.startJoin] using hreset
    · simp [State.startJoin]
    · simp [State.startJoin]
    · simp [State.startJoin]
    · cases p
      case cl | pt | rt | ir | sp | lc | cr => exact absurd (by decide) hp
      all_goals simp [State.same, State.startJoin]

/-- Settles O58, by the change of mode that the end of the window makes. -/
theorem joinWindowEnds : Obligations.JoinWindowEnds := by
  intro s hj hjoining hcount
  obtain ⟨before, after, heq⟩ := s.atRoundBegin_eq State.endWindow
  refine ⟨_, congrArg Host.Outcome.next (if_pos (by simp [hj, hjoining, hcount])), ?_⟩
  rw [heq]
  have hmode := ({ s with mm := before } : State).endWindow_mode
  refine ⟨State.endWindow_joinCount _, State.endWindow_marks _, by simp, by simp, hmode.trans ?_, fun hactive n hoff hload hline => ?_, fun p hp => ?_⟩
  · simp only [State.derivedMode, State.anyDemand, Bool.not_eq_true']
    rfl
  · exact State.endWindow_activates (s := { s with mm := before }) hjoining (hmode.symm.trans hactive) hoff hload hline
  · cases p
    case zt | rt | lc | pt | sp | sr | ir | pd | mm | om | tb | ps | cr => exact absurd (by decide) hp
    all_goals simp [State.same]

end Sys2Proof.Proofs
end

section
/-! Proofs about the operations of the tuner (chapter 9): what each stage makes of a measurement, and the station lists. -/

namespace Sys2Proof.Machine

/-! ## Station lists (R157, R160) -/

/-- A list depends on the two lists of the tuner alone. -/
theorem Tuner.list_congr {a b : Tuner} (hfm : a.fmList = b.fmList) (ham : a.amList = b.amList) (band : Band) : a.list band = b.list band := by
  cases band
  · exact hfm
  · exact ham

theorem Tuner.setList_list (tb : Tuner) (band : Band) (l : StationList) : (tb.setList band l).list band = l := by
  rw [Tuner.list_setList, if_pos rfl]

theorem StationList.append_wf {l : StationList} {e : StationEntry} (h : l.wf) (hlast : ∀ x ∈ l.entries, x.freq < e.freq) : (l.append e).wf := by
  obtain ⟨hlength, hsorted⟩ := h
  simp only [StationList.append]
  split
  · exact ⟨hlength, hsorted⟩
  next hroom =>
    refine ⟨?_, List.pairwise_append.mpr ⟨hsorted, List.pairwise_singleton _ _, fun a ha b hb => ?_⟩⟩
    · simp only [List.length_append, List.length_singleton]
      omega
    · rw [List.mem_singleton.mp hb]
      exact hlast a ha

/-- Two distinct tests split a list between them. -/
theorem length_filter_add_le {α : Type} {p q : α → Bool} (h : ∀ a, p a = true → q a = false) (l : List α) :
    (l.filter p).length + (l.filter q).length ≤ l.length := by
  induction l with
  | nil => simp
  | cons a l ih =>
    have ha := h a
    cases hp : p a <;> cases hq : q a <;> simp_all <;> omega

/-- A channel that is new to a list with room takes its place there. -/
theorem StationList.insert_new {l : StationList} {e : StationEntry} (hnew : ¬∃ x ∈ l.entries, x.freq = e.freq) (hroom : l.entries.length < 40) :
    l.insert e = { l with entries := l.entries.filter (·.freq < e.freq) ++ e :: l.entries.filter (e.freq < ·.freq) } := by
  refine if_neg ?_
  simpa [hroom] using hnew

theorem StationList.insert_known {l : StationList} {e : StationEntry} (h : (∃ x ∈ l.entries, x.freq = e.freq) ∨ 40 ≤ l.entries.length) :
    l.insert e = l := by
  refine if_pos ?_
  simpa using h

theorem StationList.mem_insert_new {l : StationList} {e : StationEntry} (hnew : ¬∃ x ∈ l.entries, x.freq = e.freq) (hroom : l.entries.length < 40)
    (x : StationEntry) : x ∈ (l.insert e).entries ↔ x = e ∨ x ∈ l.entries := by
  rw [StationList.insert_new hnew hroom]
  simp only [List.mem_append, List.mem_filter, List.mem_cons, decide_eq_true_eq]
  constructor
  · rintro (⟨hx, -⟩ | rfl | ⟨hx, -⟩)
    · exact .inr hx
    · exact .inl rfl
    · exact .inr hx
  · rintro (rfl | hx)
    · exact .inr (.inl rfl)
    · rcases Nat.lt_trichotomy x.freq e.freq with hlt | heq | hgt
      · exact .inl ⟨hx, hlt⟩
      · exact absurd ⟨x, hx, heq⟩ hnew
      · exact .inr (.inr ⟨hx, hgt⟩)

theorem StationList.insert_wf {l : StationList} (h : l.wf) (e : StationEntry) : (l.insert e).wf := by
  by_cases hknown : (∃ x ∈ l.entries, x.freq = e.freq) ∨ 40 ≤ l.entries.length
  · rw [StationList.insert_known hknown]
    exact h
  · obtain ⟨hnew, hroom⟩ := not_or.mp hknown
    rw [StationList.insert_new hnew (not_le.mp hroom)]
    obtain ⟨-, hsorted⟩ := h
    refine ⟨?_, List.pairwise_append.mpr ⟨hsorted.filter _, List.pairwise_cons.mpr ⟨fun x hx => ?_, hsorted.filter _⟩, fun a ha b hb => ?_⟩⟩
    · have hsplit := length_filter_add_le (p := fun x : StationEntry => decide (x.freq < e.freq)) (q := fun x => decide (e.freq < x.freq))
        (fun a ha => decide_eq_false (by have := of_decide_eq_true ha; omega)) l.entries
      simp only [List.length_append, List.length_cons]
      omega
    · exact of_decide_eq_true (List.mem_filter.mp hx).2
    · have hlow : a.freq < e.freq := of_decide_eq_true (List.mem_filter.mp ha).2
      rcases List.mem_cons.mp hb with rfl | hb
      · exact hlow
      · exact hlow.trans (of_decide_eq_true (List.mem_filter.mp hb).2)

theorem StationList.insert_complete (l : StationList) (e : StationEntry) : (l.insert e).complete = l.complete := by
  simp only [StationList.insert]
  split <;> rfl

/-! ## The stages of an operation (R147, R155, R156, R157) -/

theorem Tuner.accepted_iff (tb : Tuner) (c : ConfigValues) :
    tb.accepted c = true ↔ c.threshold tb.band ≤ tb.level ∧ tb.offset.num.natAbs ≤ acceptWindow tb.band * tb.offset.den := by
  simp [Tuner.accepted]

theorem State.actOnMeasurement_scan {s : State} {op : Operation} (hop : s.tb.op = some op) (hkind : op.kind = .scan) (hstage : op.stage = .stepping)
    (htarget : op.target.isSome = true) (counter : Counter) : s.actOnMeasurement counter = s.scanClose op := by
  obtain ⟨freq, hfreq⟩ := Option.isSome_iff_exists.mp htarget
  simp only [State.actOnMeasurement, hop, hfreq, hstage, hkind]

theorem State.actOnMeasurement_seek {s : State} {op : Operation} (hop : s.tb.op = some op) (hkind : op.kind = .seek) (hstage : op.stage = .stepping)
    (htarget : op.target.isSome = true) (counter : Counter) : s.actOnMeasurement counter = s.seekClose op counter := by
  obtain ⟨freq, hfreq⟩ := Option.isSome_iff_exists.mp htarget
  simp only [State.actOnMeasurement, hop, hfreq, hstage, hkind]

theorem State.actOnMeasurement_returning {s : State} {op : Operation} (hop : s.tb.op = some op) (hstage : op.stage = .returning)
    (htarget : op.target.isSome = true) (counter : Counter) : s.actOnMeasurement counter = s.listenAndEnd op counter .notFound := by
  obtain ⟨freq, hfreq⟩ := Option.isSome_iff_exists.mp htarget
  simp only [State.actOnMeasurement, hop, hfreq, hstage]

theorem State.actOnMeasurement_ending {s : State} {op : Operation} (hop : s.tb.op = some op) (hstage : op.stage = .ending)
    (htarget : op.target.isSome = true) (counter : Counter) :
    s.actOnMeasurement counter = s.listenAndEnd op counter .done (some (s.tb.list s.tb.band).entries.length) := by
  obtain ⟨freq, hfreq⟩ := Option.isSome_iff_exists.mp htarget
  simp only [State.actOnMeasurement, hop, hfreq, hstage]

theorem State.actOnMeasurement_tuning {s : State} {op : Operation} (hop : s.tb.op = some op) (hstage : op.stage = .tuning)
    (htarget : op.target.isSome = true) (counter : Counter) :
    s.actOnMeasurement counter = s.listenAndEnd op counter .done (some s.tb.level) := by
  obtain ⟨freq, hfreq⟩ := Option.isSome_iff_exists.mp htarget
  simp only [State.actOnMeasurement, hop, hfreq, hstage]

/-- An operation that moves to the measurement of a channel. -/
theorem State.stepOperation_tb (s : State) (op : Operation) (stage : Stage) (freq : Nat) :
    (s.stepOperation op stage freq).tb.state = .settling ∧ (s.stepOperation op stage freq).tb.band = s.tb.band
      ∧ (s.stepOperation op stage freq).tb.freq = freq
      ∧ (s.stepOperation op stage freq).tb.op = some { op with stage := stage, target := some freq }
      ∧ ∀ band, (s.stepOperation op stage freq).tb.list band = s.tb.list band :=
  ⟨rfl, rfl, rfl, rfl, fun band => Tuner.list_congr rfl rfl band⟩

/-- An operation that ends in LISTENING. -/
theorem State.listenAndEnd_tb (s : State) (op : Operation) (counter : Counter) (outcome : ReplyOutcome) (value : Option Nat) :
    (s.listenAndEnd op counter outcome value).tb.state = .listening ∧ (s.listenAndEnd op counter outcome value).tb.op = none
      ∧ (s.listenAndEnd op counter outcome value).tb.freq = s.tb.freq ∧ (s.listenAndEnd op counter outcome value).tb.level = s.tb.level
      ∧ ∀ band, (s.listenAndEnd op counter outcome value).tb.list band = s.tb.list band :=
  ⟨rfl, rfl, rfl, rfl, fun band => Tuner.list_congr rfl rfl band⟩

theorem State.listenAndEnd_replied {s : State} (h : s.hasRoom = true) (op : Operation) (counter : Counter) (outcome : ReplyOutcome)
    (value : Option Nat) : (s.listenAndEnd op counter outcome value).replied op.requester op.kind.request outcome value :=
  State.offerReply_replied (s := s.setTuner (s.tb.listen counter)) (by simpa [State.hasRoom] using h) _ _ _ _

/-- A SEEK that accepts its channel enters it in the list and answers with it. -/
theorem State.seekAccepts_tb {s : State} (h : s.hasRoom = true) (op : Operation) (counter : Counter) :
    (((s.setTuner (s.tb.setList s.tb.band ((s.tb.list s.tb.band).insert ⟨s.tb.freq, s.tb.level⟩))).listenAndEnd op counter .done
        (some s.tb.freq)).tb.list s.tb.band = (s.tb.list s.tb.band).insert ⟨s.tb.freq, s.tb.level⟩)
      ∧ ((s.setTuner (s.tb.setList s.tb.band ((s.tb.list s.tb.band).insert ⟨s.tb.freq, s.tb.level⟩))).listenAndEnd op counter .done
        (some s.tb.freq)).replied op.requester op.kind.request .done (some s.tb.freq) := by
  obtain ⟨-, -, -, -, hlist⟩ := (s.setTuner (s.tb.setList s.tb.band ((s.tb.list s.tb.band).insert ⟨s.tb.freq, s.tb.level⟩))).listenAndEnd_tb op counter
    .done (some s.tb.freq)
  exact ⟨(hlist _).trans (Tuner.setList_list _ _ _), State.listenAndEnd_replied (by simpa [State.hasRoom] using h) _ _ _ _⟩

/-! ## SCAN (R157) -/

/-- The list of the band after a close in STEPPING. -/
def State.scanned (s : State) : StationList :=
  if s.tb.accepted s.cl.values then (s.tb.list s.tb.band).append { freq := s.tb.freq, level := s.tb.level } else s.tb.list s.tb.band

theorem State.scanned_complete (s : State) : s.scanned.complete = (s.tb.list s.tb.band).complete := by
  simp only [State.scanned, StationList.append]
  (repeat' split) <;> rfl

theorem State.scanned_entries (s : State) :
    s.scanned.entries =
      if s.cl.values.threshold s.tb.band ≤ s.tb.level ∧ s.tb.offset.num.natAbs ≤ acceptWindow s.tb.band * s.tb.offset.den
          ∧ (s.tb.list s.tb.band).entries.length < 40 then
        (s.tb.list s.tb.band).entries ++ [⟨s.tb.freq, s.tb.level⟩]
      else (s.tb.list s.tb.band).entries := by
  by_cases haccepted : s.tb.accepted s.cl.values = true
  · obtain ⟨hlevel, hoffset⟩ := (Tuner.accepted_iff _ _).mp haccepted
    rw [State.scanned, if_pos haccepted, StationList.append]
    by_cases hfull : 40 ≤ (s.tb.list s.tb.band).entries.length
    · rw [if_pos hfull, if_neg fun h => absurd h.2.2 (not_lt.mpr hfull)]
    · rw [if_neg hfull, if_pos ⟨hlevel, hoffset, not_le.mp hfull⟩]
  · rw [State.scanned, if_neg haccepted, if_neg fun h => haccepted ((Tuner.accepted_iff _ _).mpr ⟨h.1, h.2.1⟩)]

theorem State.scanned_wf {s : State} (h : (s.tb.list s.tb.band).wf) (hlast : ∀ e ∈ (s.tb.list s.tb.band).entries, e.freq < s.tb.freq) :
    s.scanned.wf := by
  simp only [State.scanned]
  split
  · exact StationList.append_wf h hlast
  · exact h

/-- From the highest channel a SCAN marks its list COMPLETE and goes to its first entry, or back to its start. -/
theorem State.scanClose_last {s : State} {op : Operation} (h : s.tb.freq = highestChannel s.cl.values.plan s.tb.band) :
    s.scanClose op = (s.setTuner (s.tb.setList s.tb.band { s.scanned with complete := true })).stepOperation op .ending
      (((s.scanned.entries.head?).map (·.freq)).getD op.start) :=
  if_pos (beq_iff_eq.mpr h)

theorem State.scanClose_next {s : State} {op : Operation} (h : s.tb.freq ≠ highestChannel s.cl.values.plan s.tb.band) :
    s.scanClose op = (s.setTuner (s.tb.setList s.tb.band s.scanned)).stepOperation op .stepping
      (nextChannel s.cl.values.plan s.tb.band s.tb.freq .up) :=
  if_neg fun hc => h (beq_iff_eq.mp hc)

/-- What a step of a SCAN leaves of the tuner, whose list of the band is replaced. -/
theorem State.scanStep_tb (s : State) (op : Operation) (l : StationList) (stage : Stage) (freq : Nat) :
    ((s.setTuner (s.tb.setList s.tb.band l)).stepOperation op stage freq).tb.list s.tb.band = l
      ∧ (∀ other, other ≠ s.tb.band → ((s.setTuner (s.tb.setList s.tb.band l)).stepOperation op stage freq).tb.list other = s.tb.list other)
      ∧ ((s.setTuner (s.tb.setList s.tb.band l)).stepOperation op stage freq).tb.band = s.tb.band := by
  obtain ⟨-, hband, -, -, hlist⟩ := (s.setTuner (s.tb.setList s.tb.band l)).stepOperation_tb op stage freq
  refine ⟨(hlist _).trans (Tuner.setList_list _ _ _), fun other hother => (hlist _).trans ?_, hband.trans (by simp [State.setTuner])⟩
  exact (Tuner.list_setList _ _ _ _).trans (if_neg hother)

end Sys2Proof.Machine

namespace Sys2Proof.Proofs

open Sys2Proof.Machine

/-- Settles O48, by the stage of the operation, and in STEPPING by the accept test and the next channel. -/
theorem seeksStep : Obligations.SeeksStep := by
  refine ⟨fun op counter s hop hkind hstage htarget => ?_, fun op counter s hop hstage htarget hroom => ?_,
    fun op counter s hop hkind hstage htarget hroom => ?_⟩
  · rw [State.actOnMeasurement_scan hop hkind hstage htarget]
    refine ⟨s.scanned.entries, s.scanned_entries, ?_⟩
    by_cases hlast : s.tb.freq = highestChannel s.cl.values.plan s.tb.band
    · rw [State.scanClose_last hlast]
      obtain ⟨hlist, hother, hband⟩ := s.scanStep_tb op { s.scanned with complete := true } .ending (((s.scanned.entries.head?).map (·.freq)).getD op.start)
      refine ⟨fun hwf hfreqs => by rw [hlist]; exact State.scanned_wf hwf hfreqs, hother, rfl, hband, .ending, _, rfl, rfl, ?_⟩
      rw [if_pos hlast]
      refine ⟨hlist, rfl, ?_⟩
      cases s.scanned.entries <;> rfl
    · rw [State.scanClose_next hlast]
      obtain ⟨hlist, hother, hband⟩ := s.scanStep_tb op s.scanned .stepping (nextChannel s.cl.values.plan s.tb.band s.tb.freq .up)
      refine ⟨fun hwf hfreqs => by rw [hlist]; exact State.scanned_wf hwf hfreqs, hother, rfl, hband, .stepping, _, rfl, rfl, ?_⟩
      rw [if_neg hlast]
      exact ⟨hlist.trans (by rw [← State.scanned_complete]), rfl, rfl⟩
  · rcases hstage with hreturning | hending
    · rw [State.actOnMeasurement_returning hop hreturning htarget, if_neg (by rw [hreturning]; decide)]
      exact ⟨rfl, rfl, rfl, State.listenAndEnd_replied hroom _ _ _ _⟩
    · rw [State.actOnMeasurement_ending hop hending htarget, if_pos hending]
      exact ⟨rfl, rfl, rfl, State.listenAndEnd_replied hroom _ _ _ _⟩
  · rw [State.actOnMeasurement_seek hop hkind hstage htarget]
    by_cases haccepted : s.tb.accepted s.cl.values = true
    · rw [if_pos ((Tuner.accepted_iff _ _).mp haccepted), State.seekClose, if_pos haccepted]
      obtain ⟨hlisted, hreplied⟩ := s.seekAccepts_tb hroom op counter
      rw [hkind] at hreplied
      refine ⟨rfl, rfl, hreplied, ?_, ?_, ?_⟩
      · rw [hlisted]
        exact fun hwf => StationList.insert_wf hwf _
      · rw [hlisted]
        exact StationList.insert_complete _ _
      · rw [hlisted]
        split
        next hknown => exact StationList.insert_known hknown
        next hnew =>
          obtain ⟨hfresh, hspace⟩ := not_or.mp hnew
          exact StationList.mem_insert_new hfresh (not_le.mp hspace)
    · rw [if_neg fun h => haccepted ((Tuner.accepted_iff _ _).mpr h), State.seekClose, if_neg haccepted]
      by_cases hback : nextChannel s.cl.values.plan s.tb.band s.tb.freq op.direction = op.start
      · refine ⟨.returning, op.start, (if_pos hback).mpr ⟨rfl, rfl⟩, ?_⟩
        rw [if_pos (beq_iff_eq.mpr hback)]
        exact ⟨rfl, rfl, rfl⟩
      · refine ⟨.stepping, nextChannel s.cl.values.plan s.tb.band s.tb.freq op.direction, (if_neg hback).mpr ⟨rfl, rfl⟩, ?_⟩
        rw [if_neg fun hc => hback (beq_iff_eq.mp hc)]
        exact ⟨rfl, rfl, rfl⟩

end Sys2Proof.Proofs
end

section
/-! Proofs about the tuner's timers (R147 to R151): a step made ahead of a round begin, and the round begin that it stands for. -/

namespace Sys2Proof.Machine

/-! ## What a round begin does at the tuner -/

/-- A round begin up to the presentation. -/
def State.heardRound (s : State) (r : RoundBegin) : State :=
  ((if r.rampOrder == .stepFirst then s.swapRound.rampRound else s.swapRound).clockRound r).peerRound

/-- A round begin up to the tuner's step. -/
def State.beforeTuner (s : State) (r : RoundBegin) : State :=
  let presented := (s.heardRound r).receiverRound s.rt.adoptedD
  (presented.inputRound .a r.inputA (s.localRound presented.rt.counter)).inputRound .b r.inputB (s.localRound presented.rt.counter)

/-- A round begin between the tuner's step and the count of the join window. -/
def State.afterTuner (s : State) (r : RoundBegin) : State :=
  let evaluated := (s.eachSource State.offerAgain).evalGo.switchIfDown
  let ramped := if r.rampOrder == .changeFirst then evaluated.rampRound else evaluated
  { ramped with sr := { ramped.sr with gathered := [] }, om := { ramped.om with carrier := 0 } }.outputRound

theorem State.roundBegin_parts (s : State) (r : RoundBegin) :
    s.roundBegin r = (((s.beforeTuner r).tunerRound r.frontEnd r.demodulated).afterTuner r).joinRound.sourceClose.presenceRound := by
  simp only [State.roundBegin, State.beforeTuner, State.heardRound, State.afterTuner, State.sourceRound]

theorem State.heardRound_keeps (s : State) (r : RoundBegin) : (s.heardRound r).tb = s.tb ∧ (s.heardRound r).cl = s.cl := by
  simp only [State.heardRound]
  split <;> simp

theorem State.beforeTuner_keeps (s : State) (r : RoundBegin) :
    (s.beforeTuner r).tb = s.tb ∧ (s.beforeTuner r).cl = s.cl ∧ (s.beforeTuner r).rt = (s.heardRound r).rt := by
  obtain ⟨htb, hcl⟩ := s.heardRound_keeps r
  simp [State.beforeTuner, htb, hcl]

theorem State.afterTuner_keeps (s : State) (r : RoundBegin) : (s.afterTuner r).tb = s.tb ∧ (s.afterTuner r).rt = s.rt := by
  simp only [State.afterTuner]
  split <;> simp [State.eachSource]

theorem State.roundBegin_counter (s : State) (r : RoundBegin) : (s.roundBegin r).rt.counter = (s.beforeTuner r).rt.counter := by
  obtain ⟨hjoined, -⟩ := RoundTimer.SameClock.fields _ _ (State.joinRound_clock (((s.beforeTuner r).tunerRound r.frontEnd r.demodulated).afterTuner r))
  rw [State.roundBegin_parts]
  simp [hjoined, (State.afterTuner_keeps _ r).2]

/-- The end of the join window leaves the tuner, or turns it OFF with the station (R154). -/
theorem State.joinRound_tb (s : State) : s.joinRound.tb = s.tb ∨ s.joinRound.tb.state = .off := by
  simp only [State.joinRound]
  split
  next hjoining =>
    split
    · have hmode : s.closeWindow.pt.mode = .joining := beq_iff_eq.mp hjoining
      simp only [State.endWindow, State.changeMode, hmode]
      split
      · exact .inl (by simp [State.eachSource])
      · simp only [State.enterMode]
        split
        · exact .inl (by simp [State.eachSource, State.eachOutput])
        · exact .inl (by simp [State.eachSource, State.eachOutput])
        · exact .inr (by simp [State.eachSource, State.stopTuner, State.setTuner, Tuner.toOff])
        · exact .inl (by simp [State.eachSource])
    · exact .inl rfl
  next => exact .inl rfl

theorem State.sourceClose_tb (s : State) :
    s.sourceClose.tb.state = s.tb.state ∧ s.sourceClose.tb.phase = s.tb.phase ∧ s.sourceClose.tb.gate = s.tb.gate := by
  simp only [State.sourceClose, State.tunerClose]
  split <;> simp

/-! ## A round begin whose settle or gate step a command has made -/

theorem Tuner.accumulate_keeps (tb : Tuner) (fe : FrontEnd) :
    (tb.accumulate fe).state = tb.state ∧ (tb.accumulate fe).phase = tb.phase ∧ (tb.accumulate fe).band = tb.band
      ∧ (tb.accumulate fe).taken = tb.taken := by
  cases hs : tb.state <;> simp [Tuner.accumulate, hs]

/-- The unheld count turns the tuner OFF, or leaves its state, band and phase. -/
theorem Tuner.unheldStep_cases (tb : Tuner) :
    (tb.unheldStep.state = .off ∧ tb.unheldStep.taken.phase = false)
      ∨ (tb.unheldStep.state = tb.state ∧ tb.unheldStep.phase = tb.phase ∧ tb.unheldStep.band = tb.band
        ∧ tb.unheldStep.taken.phase = tb.taken.phase) := by
  simp only [Tuner.unheldStep, Tuner.unheldMove]
  (repeat' split)
  · exact .inr ⟨rfl, rfl, rfl, rfl⟩
  · exact .inl ⟨rfl, rfl⟩
  · exact .inr ⟨rfl, rfl, rfl, rfl⟩
  · exact .inr ⟨rfl, rfl, rfl, rfl⟩

/-- The tuner after such a round begin, as far as it is not OFF: its phase stands, and a gate that the step opened starts at the capture. -/
theorem State.tunerRound_ahead {s : State} (hfitted : s.cl.values.tunerFitted = true) (hphase : s.tb.taken.phase = true) (fe : FrontEnd)
    (d : Demodulated) (hstate : s.tb.state ≠ .off) :
    (s.tunerRound fe d).tb.state = .off
      ∨ (s.tunerRound fe d).tb.state = s.tb.state ∧ (s.tunerRound fe d).tb.phase = s.tb.phase
        ∧ (s.tb.state ≠ .settling →
          (s.tunerRound fe d).tb.gate.left = gateTime s.tb.band ∧ (s.tunerRound fe d).tb.gate.counterStart = s.rt.counter) := by
  have hunheld := (s.tb.accumulate fe).unheldStep_cases
  obtain ⟨hkstate, hkphase, hkband, hktaken⟩ := s.tb.accumulate_keeps fe
  simp only [State.tunerRound, hfitted, if_true]
  rcases hunheld with ⟨hoff, htaken⟩ | ⟨hustate, huphase, huband, hutaken⟩
  · left
    simp [State.phaseStep, State.setTuner, htaken, hoff, Tuner.gateDue, Tuner.count]
  · right
    rw [hkstate] at hustate
    rw [hkphase] at huphase
    rw [hkband] at huband
    rw [hktaken, hphase] at hutaken
    simp only [State.phaseStep, State.setTuner, hutaken, if_true, Tuner.afterAhead, hustate]
    cases hs : s.tb.state with
    | off => exact absurd hs hstate
    | settling => simp [huphase]
    | measuring | listening => simp [huphase, huband, Tuner.openGate]

/-- The round begin that a settle or gate step stands for. -/
theorem State.roundBegin_ahead {s : State} (hfitted : s.cl.values.tunerFitted = true) (hphase : s.tb.taken.phase = true)
    (hstate : s.tb.state ≠ .off) (r : RoundBegin) (hsame : (s.roundBegin r).tb.state = s.tb.state) :
    (s.roundBegin r).tb.phase = s.tb.phase
      ∧ (s.tb.state ≠ .settling →
        (s.roundBegin r).tb.gate.left = gateTime s.tb.band ∧ (s.roundBegin r).tb.gate.counterStart = (s.roundBegin r).rt.counter) := by
  obtain ⟨htb, hcl, -⟩ := s.beforeTuner_keeps r
  obtain ⟨hafter, -⟩ := ((s.beforeTuner r).tunerRound r.frontEnd r.demodulated).afterTuner_keeps r
  obtain ⟨hclosed, hclosedPhase, hclosedGate⟩ := (((s.beforeTuner r).tunerRound r.frontEnd r.demodulated).afterTuner r).joinRound.sourceClose_tb
  have hend : (s.roundBegin r).tb =
      (((s.beforeTuner r).tunerRound r.frontEnd r.demodulated).afterTuner r).joinRound.sourceClose.tb := by
    rw [State.roundBegin_parts]
    simp
  rw [State.roundBegin_counter]
  rw [hend] at hsame ⊢
  rw [hclosed] at hsame
  rw [hclosedPhase, hclosedGate]
  rcases State.joinRound_tb (((s.beforeTuner r).tunerRound r.frontEnd r.demodulated).afterTuner r) with hkept | hoff
  · rw [hkept, hafter] at hsame ⊢
    rcases State.tunerRound_ahead (s := s.beforeTuner r) (hcl ▸ hfitted) (htb ▸ hphase) r.frontEnd r.demodulated (htb ▸ hstate) with
      hoff | ⟨-, hkeeps⟩
    · exact absurd (hsame.symm.trans hoff) hstate
    · rw [htb] at hkeeps
      exact hkeeps
  · exact absurd (hsame.symm.trans hoff) hstate

/-! ## The close of a gate (R147, R148, R155) -/

/-- The close of an event keeps each message that reports nothing. -/
theorem State.closeEvent_queued {s : State} {m : Msg} (hpresence : m.isPresence = false) (hstatus : m.isStatus = false) (h : s.queued m) :
    s.closeEvent.queued m :=
  (State.closeEvent_offers (z := false) s (.refl _ _)).keepsMsg hpresence hstatus h

/-- What is done with a measurement leaves it standing, and the tuner waits for the next one in SETTLING or LISTENING. -/
theorem State.actOnMeasurement_keeps (s : State) (counter : Counter) :
    (s.actOnMeasurement counter).tb.level = s.tb.level ∧ (s.actOnMeasurement counter).tb.offset = s.tb.offset
      ∧ (s.actOnMeasurement counter).tb.pilot = s.tb.pilot
      ∧ ((s.actOnMeasurement counter).tb.state = .settling ∨ (s.actOnMeasurement counter).tb.state = .listening) := by
  simp only [State.actOnMeasurement]
  split
  next => exact ⟨rfl, rfl, rfl, .inr rfl⟩
  next op hop =>
    split
    · exact ⟨rfl, rfl, rfl, .inr rfl⟩
    · exact ⟨rfl, rfl, rfl, .inr rfl⟩
    · exact ⟨rfl, rfl, rfl, .inr rfl⟩
    · exact ⟨rfl, rfl, rfl, .inr rfl⟩
    · exact ⟨rfl, rfl, rfl, .inr rfl⟩
    · simp only [State.seekClose]
      (repeat' split)
      · cases s.tb.band <;> exact ⟨rfl, rfl, rfl, .inr rfl⟩
      · exact ⟨rfl, rfl, rfl, .inl rfl⟩
      · exact ⟨rfl, rfl, rfl, .inl rfl⟩
    · simp only [State.scanClose]
      split
      · cases s.tb.band <;> exact ⟨rfl, rfl, rfl, .inl rfl⟩
      · cases s.tb.band <;> exact ⟨rfl, rfl, rfl, .inl rfl⟩

/-- A tuner in MEASURING whose gate a command closes: the readings count before the close. -/
def State.measured (s : State) (fe : FrontEnd) (counter : Counter) : State :=
  ((s.setTuner (s.tb.ahead.accumulate fe)).setTuner ((s.tb.ahead.accumulate fe).closeGate counter s.freeDraws)).draw

theorem State.gateCloses_measuring {s : State} (h : s.tb.state = .measuring) (fe : FrontEnd) (counter : Counter) :
    (s.setTuner (s.tb.ahead.accumulate fe)).gateCloses counter = (s.measured fe counter).actOnMeasurement counter := by
  obtain ⟨hstate, -⟩ := s.tb.ahead.accumulate_keeps fe
  have hmeasuring : (s.tb.ahead.accumulate fe).state = .measuring := hstate.trans h
  refine if_neg ?_
  simp [State.setTuner, hmeasuring]

/-- The measurement of a gate (R148). -/
theorem State.measured_tb {s : State} (h : s.tb.state = .measuring) (fe : FrontEnd) (counter : Counter) :
    (s.tb.gate.readings + fe.levels.length ≠ 0 →
        (s.measured fe counter).tb.level =
          (s.tb.gate.levelSum + (fe.levels.map (·.toNat)).sum) / (s.tb.gate.readings + fe.levels.length))
      ∧ ((counter - s.tb.gate.counterStart).toNat ≠ 0 →
        (s.measured fe counter).tb.offset.den = (counter - s.tb.gate.counterStart).toNat
          ∧ (s.measured fe counter).tb.offset.num =
            ((s.tb.ifCount + fe.edges - s.tb.gate.ifStart) * 12288 : Nat)
              - (nominalIf s.tb.band * (counter - s.tb.gate.counterStart).toNat : Nat))
      ∧ (s.measured fe counter).tb.pilot = (s.tb.band == .fm && s.tb.gate.pilot && fe.pilot) := by
  have hgate : (s.tb.ahead.accumulate fe) =
      { s.tb.ahead with
        ifCount := s.tb.ifCount + fe.edges
        gate := { s.tb.gate with
          levelSum := s.tb.gate.levelSum + (fe.levels.map (·.toNat)).sum
          readings := s.tb.gate.readings + fe.levels.length
          pilot := s.tb.gate.pilot && fe.pilot } } := by
    simp [Tuner.accumulate, Tuner.ahead, h]
  simp only [State.measured, hgate, State.setTuner, State.draw, Tuner.closeGate, Tuner.gateLevel, Tuner.gateOffset]
  refine ⟨fun hreadings => if_neg hreadings, fun htime => ?_, ?_⟩
  · rw [if_neg htime]
    exact ⟨rfl, rfl⟩
  · simp [Tuner.ahead, Bool.and_assoc]

theorem State.measured_keeps (s : State) (fe : FrontEnd) (counter : Counter) :
    (s.measured fe counter).tb.op = s.tb.op ∧ (s.measured fe counter).tb.freq = s.tb.freq ∧ (s.measured fe counter).lc = s.lc := by
  cases hs : s.tb.state <;> simp [State.measured, State.setTuner, State.draw, Tuner.closeGate, Tuner.accumulate, Tuner.ahead, hs]

/-- The state that GATE_CLOSE leaves in MEASURING, before the event closes. -/
def State.gateClosed (s : State) (fe : FrontEnd) (counter : Counter) : State :=
  ((s.measured fe counter).actOnMeasurement counter).takePhase s.tb.op.isSome

theorem exec_gateClose {s : State} (hjoined : s.joined = true) (hfitted : s.cl.values.tunerFitted = true) (hstate : s.tb.state = .measuring)
    (hphase : s.tb.phase ≤ 1) (elapsed : Nat) (fe : FrontEnd) :
    exec (.gateClose elapsed fe) s = .next (s.gateClosed fe (s.rt.counter + BitVec.ofNat 32 elapsed)).closeEvent := by
  rw [State.gateClosed, ← State.gateCloses_measuring hstate]
  exact congrArg Host.Outcome.next (if_pos (by simp [hjoined, hfitted, hstate, hphase, Tuner.gateDue]))

theorem State.takePhase_tb (s : State) (b : Bool) :
    (s.takePhase b).tb = { s.tb with taken := { phase := true, unheld := b && s.tb.op.isNone } } := rfl

theorem State.gateClosed_changes (s : State) (fe : FrontEnd) (counter : Counter) :
    ChangesOnly [.tb, .lc, .cr, .pt, .draws] s (s.gateClosed fe counter).closeEvent := by
  intro p hp
  cases p
  case tb | lc | cr | pt | draws => exact absurd (by decide) hp
  all_goals simp [State.same, State.gateClosed, State.measured]

/-- The round begin after a step made ahead at the tuner. -/
theorem exec_roundBegin_ahead {t : State} (hjoined : t.joined = true) (hfitted : t.cl.values.tunerFitted = true)
    (hphase : t.tb.taken.phase = true) (hstate : t.tb.state ≠ .off) (r : RoundBegin) :
    ∃ u, exec (.roundBegin r) t = .next u
      ∧ (u.tb.state = t.tb.state →
        u.tb.phase = t.tb.phase
          ∧ (t.tb.state ≠ .settling → u.tb.gate.left = gateTime t.tb.band ∧ u.tb.gate.counterStart = u.rt.counter)) := by
  refine ⟨_, exec_roundBegin r hjoined, fun hsame => ?_⟩
  simp only [State.closeEvent_frame] at hsame ⊢
  exact State.roundBegin_ahead hfitted hphase hstate r hsame

end Sys2Proof.Machine

namespace Sys2Proof.Proofs

open Sys2Proof.Machine

/-- Settles O46: the step that the command makes, and the round begin that it stands for. -/
theorem tunerTimersEnd : Obligations.TunerTimersEnd := by
  intro s hjoined hfitted hquiet
  obtain ⟨hstatus, hpresence⟩ := State.quiet_iff.mp hquiet
  refine ⟨fun hstate hphase => ?_, fun hstate hholders hop hunheld => ?_⟩
  · have hexec : exec .settleEnd s = .next ((s.setTuner (s.tb.ahead.measure s.rt.counter)).takePhase false) := by
      refine (congrArg Host.Outcome.next (if_pos (by simp [hjoined, hfitted, hstate, hphase]))).trans ?_
      rw [State.closeEvent_quiet (by exact hstatus) (by exact hpresence)]
    refine ⟨_, hexec, rfl, rfl, rfl, rfl, rfl, rfl, rfl, rfl, rfl, ?_, fun r => ?_⟩
    · intro p hp
      cases p
      case tb => exact absurd (by decide) hp
      all_goals rfl
    · obtain ⟨u, hround, hkeeps⟩ := exec_roundBegin_ahead (t := (s.setTuner (s.tb.ahead.measure s.rt.counter)).takePhase false) hjoined hfitted rfl
        TunerState.noConfusion r
      refine ⟨u, hround, fun hmeasuring => ?_⟩
      obtain ⟨hkept, hgate⟩ := hkeeps hmeasuring
      exact ⟨hkept, (hgate TunerState.noConfusion).2⟩
  · have hexec : exec .unheldTimeout s = .next (s.setTuner s.tb.ahead.toOff) := by
      refine (congrArg Host.Outcome.next (if_pos (by simp [hjoined, hfitted, hunheld]))).trans ?_
      have hmove : s.tb.ahead.unheldMove = s.tb.ahead.toOff := by
        simp [Tuner.unheldMove, Tuner.ahead, hstate, hholders, hop, hunheld]
      rw [hmove, State.closeEvent_quiet (by exact hstatus) (by exact hpresence)]
    refine ⟨_, hexec, rfl, rfl, rfl, rfl, rfl, rfl, rfl, rfl, rfl, ?_⟩
    intro p hp
    cases p
    case tb => exact absurd (by decide) hp
    all_goals rfl

/-- Settles O47: the measurement of the gate, what the operation makes of it, and the round begin that the command stands for. -/
theorem gatesAreMeasured : Obligations.GatesAreMeasured := by
  intro elapsed fe s hjoined hfitted hstate hphase
  refine ⟨_, exec_gateClose hjoined hfitted hstate hphase elapsed fe, ?_⟩
  generalize s.rt.counter + BitVec.ofNat 32 elapsed = counter
  obtain ⟨hlevel, hoffset, hpilot⟩ := State.measured_tb hstate fe counter
  obtain ⟨hop, hfreq, hlc⟩ := s.measured_keeps fe counter
  obtain ⟨hlevelKept, hoffsetKept, hpilotKept, hstates⟩ := (s.measured fe counter).actOnMeasurement_keeps counter
  have htb : (s.gateClosed fe counter).closeEvent.tb = (((s.measured fe counter).actOnMeasurement counter).takePhase s.tb.op.isSome).tb := by
    simp [State.gateClosed]
  rw [htb]
  simp only [State.takePhase_tb, hlevelKept, hoffsetKept, hpilotKept]
  refine ⟨⟨hlevel, hoffset⟩, hpilot, fun hnone => ?_, fun op hsome hstage htarget hroom => ?_, fun r => ?_, s.gateClosed_changes fe counter⟩
  · rw [hnone] at hop
    simp only [State.actOnMeasurement, hop]
    exact ⟨rfl, hfreq⟩
  · rw [hsome] at hop
    rw [State.actOnMeasurement_tuning hop hstage htarget]
    have hreplied := State.listenAndEnd_replied (s := s.measured fe counter) (by simpa [State.hasRoom, hlc] using hroom) op counter .done
      (some (s.measured fe counter).tb.level)
    refine ⟨rfl, hfreq, rfl, State.closeEvent_queued rfl rfl ?_⟩
    rw [State.gateClosed, State.actOnMeasurement_tuning hop hstage htarget]
    exact hreplied
  · have hround := exec_roundBegin_ahead (t := (s.gateClosed fe counter).closeEvent) (by simpa [State.joined, State.inReset, State.gateClosed, State.measured] using hjoined)
      (by simpa [State.gateClosed, State.measured] using hfitted) (by rw [htb]; rfl)
      (by rw [htb]; rcases hstates with h | h <;> simp [State.takePhase_tb, h]) r
    obtain ⟨u, hexec, hkeeps⟩ := hround
    rw [htb] at hkeeps
    refine ⟨u, hexec, fun hsame => ?_⟩
    obtain ⟨hphaseKept, hgate⟩ := hkeeps hsame
    exact ⟨hphaseKept, fun hlistening => hgate (by rw [State.takePhase_tb]; simp [hlistening])⟩

end Sys2Proof.Proofs
end

section
/-! Proofs about the own zone's program at a take (R67, R72, R77) and about the zone records that ZONE SET and ZONE STATE leave (chapter 5). -/

namespace Sys2Proof.Machine

/-! ## PROGRAM_LOST at a change of mode -/

/-- PROGRAM_LOST stands as it stood, or is clear. -/
def State.ProgramKept (s t : State) : Prop := s.cr.holds .programLost = false → t.cr.holds .programLost = false

theorem State.ProgramKept.trans {s t u : State} (h : s.ProgramKept t) (k : t.ProgramKept u) : s.ProgramKept u := fun hs => k (h hs)

theorem State.setCondition_programLost (s : State) {c : Condition} (h : .programLost ≠ c) (b : Bool) :
    (s.setCondition c b).cr.holds .programLost = s.cr.holds .programLost := Conditions.put_holds_ne _ _ _ _ h

theorem State.putInput_programLost (s : State) (id : InputId) (r : InputRecord) :
    (s.putInput id r).cr.holds .programLost = s.cr.holds .programLost := State.putInput_holds _ _ _ _ (by simp) (by simp)

theorem State.powerInput_programLost (s : State) (id : InputId) : (s.powerInput id).cr.holds .programLost = s.cr.holds .programLost := by
  simp only [State.powerInput]
  split
  · exact s.putInput_programLost _ _
  · rfl

theorem State.wake_programLost (s : State) : s.wake.cr.holds .programLost = s.cr.holds .programLost := by
  simp [State.wake, State.startTakeover, State.powerInput_programLost]

theorem State.countFault_programLost (s : State) (n : OutputNo) : (s.countFault n).cr.holds .programLost = s.cr.holds .programLost := by
  simp only [State.countFault, State.announceIf_frame]
  rw [State.setCondition_programLost _ (by simp), State.setCondition_programLost _ (by simp)]
  rfl

theorem State.activateOutput_programLost (s : State) (n : OutputNo) :
    (s.activateOutput n).cr.holds .programLost = s.cr.holds .programLost := by
  simp only [State.activateOutput, State.countFaultIf]
  (repeat' split)
  · exact State.setCondition_programLost _ (by simp) _
  · exact State.countFault_programLost _ _
  · rfl
  · rfl

theorem State.quietOutput_programLost (s : State) (n : OutputNo) : (s.quietOutput n).cr.holds .programLost = s.cr.holds .programLost := by
  simp only [State.quietOutput]
  split <;> rfl

theorem State.standbyOutput_programLost (s : State) (n : OutputNo) :
    (s.standbyOutput n).cr.holds .programLost = s.cr.holds .programLost := by
  simp only [State.standbyOutput, State.announceIf_frame]
  exact State.setCondition_programLost _ (by simp) _

theorem State.eachOutput_programLost {f : State → OutputNo → State} (hf : ∀ x n, (f x n).cr.holds .programLost = x.cr.holds .programLost)
    (s : State) : (s.eachOutput f).cr.holds .programLost = s.cr.holds .programLost :=
  State.eachOutput_keeps (P := fun x => x.cr.holds .programLost = s.cr.holds .programLost) rfl fun x n hx => (hf x n).trans hx

theorem State.switchIfDown_programLost (s : State) : s.ProgramKept s.switchIfDown := by
  simp only [State.switchIfDown]
  (repeat' split)
  · exact fun hs => hs
  · exact fun _ => State.switchTo_programLost _ _
  · exact fun hs => hs

theorem State.checkDecoder_programLost (s : State) : s.checkDecoder.cr.holds .programLost = s.cr.holds .programLost :=
  s.checkDecoder_holds _ (by simp)

theorem State.evalGo_programLost (s : State) : s.evalGo.cr.holds .programLost = s.cr.holds .programLost := rfl

/-- Entry to STANDBY up to the switch that it releases. -/
def State.fallsAsleep (s : State) : State :=
  (({ (s.eachOutput State.standbyOutput) with rt := s.rt.sleep }.unpowerInput .a).unpowerInput .b).checkDecoder.stopTuner

theorem State.fallsAsleep_programLost (s : State) : s.fallsAsleep.cr.holds .programLost = s.cr.holds .programLost := by
  rw [← State.eachOutput_programLost State.standbyOutput_programLost s]
  simp only [State.fallsAsleep, State.stopTuner_frame, State.checkDecoder_programLost, State.unpowerInput, State.putInput_programLost]

/-- Entry to a mode leaves PROGRAM_LOST, but for the switch that entry to STANDBY may release. -/
theorem State.enterMode_programLost (s : State) (old : Mode) :
    (s.enterMode old).cr.holds .programLost = s.cr.holds .programLost
      ∨ (s.enterMode old).cr.holds .programLost = s.fallsAsleep.switchIfDown.cr.holds .programLost := by
  have hawake : (if old == .standby then s.wake else s).cr.holds .programLost = s.cr.holds .programLost := by
    split
    · exact s.wake_programLost
    · rfl
  cases hm : s.pt.mode with
  | joining =>
    simp only [State.enterMode, hm]
    exact .inl trivial
  | active =>
    simp only [State.enterMode, hm]
    refine .inl ?_
    rw [State.evalGo_programLost, State.checkDecoder_programLost, State.eachOutput_programLost State.activateOutput_programLost, hawake]
  | serving =>
    simp only [State.enterMode, hm]
    refine .inl ?_
    rw [State.evalGo_programLost, State.checkDecoder_programLost, State.eachOutput_programLost State.quietOutput_programLost, hawake]
  | standby =>
    simp only [State.enterMode, hm]
    exact .inr rfl

theorem State.enterMode_programKept (s : State) (old : Mode) : s.ProgramKept (s.enterMode old) := fun hs => by
  rcases s.enterMode_programLost old with hsame | hdown
  · exact hsame.trans hs
  · exact hdown.trans (State.switchIfDown_programLost _ (s.fallsAsleep_programLost.trans hs))

theorem State.changeMode_programKept (s : State) (m : Mode) : s.ProgramKept (s.changeMode m) := by
  simp only [State.changeMode]
  split
  · exact fun hs => hs
  · have hannounced : s.ProgramKept { s with pt := { s.pt with mode := m } }.announce := fun hs => hs
    exact hannounced.trans (State.enterMode_programKept _ _)

theorem State.rederiveMode_programKept (s : State) : s.ProgramKept s.rederiveMode := by
  simp only [State.rederiveMode]
  split
  · exact s.changeMode_programKept _
  · exact fun hs => hs

/-! ## The receiver at a change of the own program (R67, R72) -/

theorem State.not_sounding_iff (s : State) : s.sounding = false ↔ ¬∃ n : OutputNo, s.om.outputs[n].state.sounding = true := by
  rw [← s.sounding_iff, Bool.not_eq_true]

/-- A change of mode at a receiver without a target leaves it. -/
theorem State.FollowsMode.sr_of_none {a t : State} (h : a.FollowsMode t) (hnone : a.sr.target = none) : t.sr = a.sr := by
  rcases h with ⟨hsr, -⟩ | ⟨-, ⟨-, hsr⟩ | ⟨p, hp, -⟩⟩
  · exact hsr
  · exact hsr
  · exact absurd (hnone.symm.trans hp) (by simp)

/-- A change of mode at a receiver that holds a target while an output sounds keeps the target, or brings the outputs down and switches. -/
theorem State.FollowsMode.sr_of_held {a t : State} {p : Option Stream} (h : a.FollowsMode t) (hp : a.sr.target = some p)
    (hsounding : a.sounding = true) :
    if ∃ n : OutputNo, t.om.outputs[n].state.sounding = true then t.sr = a.sr
    else t.sr = Receiver.switched p ∧ t.cr.holds .programLost = false := by
  obtain ⟨n, hn⟩ := a.sounding_iff.mp hsounding
  rcases h with ⟨hsr, hkeeps⟩ | ⟨hoff, hreceiver⟩
  · rw [if_pos ⟨n, hkeeps n hn⟩]
    exact hsr
  · rw [if_neg ((State.not_sounding_iff t).mp (State.not_sounding_of_off hoff))]
    rcases hreceiver with ⟨hnone, -⟩ | ⟨q, hq, hswitched⟩
    · exact absurd (hp.symm.trans hnone) (by simp)
    · cases Option.some.inj (hp.symm.trans hq)
      exact hswitched

/-- A change of mode at a receiver that holds a target keeps it or switches to it. -/
theorem State.FollowsMode.sr_of_some {a t : State} {p : Option Stream} (h : a.FollowsMode t) (hp : a.sr.target = some p) :
    t.sr = a.sr ∨ t.sr = Receiver.switched p ∧ t.cr.holds .programLost = false := by
  rcases h with ⟨hsr, -⟩ | ⟨-, ⟨-, hsr⟩ | ⟨q, hq, hswitched⟩⟩
  · exact .inl hsr
  · exact .inl hsr
  · cases Option.some.inj (hp.symm.trans hq)
    exact .inr hswitched

/-- A take that leaves the own zone's program. -/
theorem State.followsProgram_same {s a t : State} (h : a.FollowsMode t) (hom : a.om = s.om) (hsr : a.sr = s.sr)
    (hsame : t.ownRecord.program = s.ownRecord.program) : s.followsProgram t := by
  have hsound : a.sounding = s.sounding := by rw [State.sounding, hom, State.sounding]
  simp only [State.followsProgram, if_pos hsame]
  cases htarget : s.sr.target with
  | none =>
    refine (h.sr_of_none (hsr ▸ htarget)).trans (hsr.trans ?_)
    rw [← htarget]
  | some p =>
    have hheld : s.sr = { s.sr with target := some p } := by rw [← htarget]
    dsimp only
    rw [← hheld]
    split
    next hs =>
      rw [← hsr]
      exact h.sr_of_held (hsr ▸ htarget) (hsound.trans (s.sounding_iff.mpr hs))
    next =>
      rw [← hsr]
      exact h.sr_of_some (hsr ▸ htarget)

/-- A change of the own zone's program, as the receiver follows it (R72). -/
theorem State.followsProgram_changed {s b a t : State} (h : a.FollowsMode t) (haom : a.om = s.om) (hsr : a.sr = b.followProgram.sr)
    (hbom : b.om = s.om) (hbsr : b.sr = s.sr) (hown : t.ownRecord.program = b.ownRecord.program)
    (hchanged : t.ownRecord.program ≠ s.ownRecord.program)
    (hfound : b.followProgram.cr.holds .programLost = false → t.cr.holds .programLost = false) : s.followsProgram t := by
  have hbsound : b.sounding = s.sounding := by rw [State.sounding, hbom, State.sounding]
  have hasound : a.sounding = s.sounding := by rw [State.sounding, haom, State.sounding]
  simp only [State.followsProgram, if_neg hchanged]
  simp only [State.followProgram, hbsr, hbsound, ← hown] at hsr hfound
  by_cases hback : t.ownRecord.program = s.sr.subscription
  · rw [if_pos hback]
    rw [if_pos (beq_iff_eq.mpr hback)] at hsr
    exact (h.sr_of_none (by rw [hsr])).trans hsr
  · rw [if_neg hback]
    rw [if_neg (by simpa using hback)] at hsr hfound
    dsimp only
    cases hs : s.sounding with
    | true =>
      rw [hs, if_pos rfl] at hsr
      rw [if_pos (s.sounding_iff.mp hs)]
      have hheld := h.sr_of_held (by rw [hsr]) (hasound.trans hs)
      rw [hsr] at hheld
      exact hheld
    | false =>
      rw [hs, if_neg (by simp)] at hsr hfound
      rw [if_neg (s.not_sounding_iff.mp hs)]
      rw [State.switchTo_sr] at hsr
      exact ⟨(h.sr_of_none (by rw [hsr]; rfl)).trans hsr, hfound (State.switchTo_programLost _ _)⟩

/-- The records handed on (R77): the receiver follows the own zone's program. -/
theorem State.handRecords_followsProgram {s x : State} (hom : x.om = s.om) (hsr : x.sr = s.sr) :
    s.followsProgram (x.handRecords s.ownRecord) := by
  have hown : (x.handRecords s.ownRecord).ownRecord = x.followDemands.ownRecord := by
    simp [State.ownRecord, State.ownZone]
  by_cases hsame : x.followDemands.ownRecord.program = s.ownRecord.program
  · refine State.followsProgram_same (State.rederiveMode_follows _).evalGo ?_ ?_ (by rw [hown]; exact hsame)
    · simp [hsame, hom]
    · simp [hsame, hsr]
  · refine State.followsProgram_changed (b := x.followDemands) (State.rederiveMode_follows _).evalGo ?_ ?_ (by simp [hom]) (by simp [hsr])
      (by rw [hown]) (by rw [hown]; exact hsame) fun hfound => ?_
    · simp [hsame, hom]
    · simp [hsame]
    · refine (State.evalGo_programLost _).trans (State.rederiveMode_programKept _ ?_)
      simpa [hsame] using hfound

/-- The close of the position leaves the receiver. -/
theorem State.followsProgram.closePosition {s t : State} (h : s.followsProgram t) : s.followsProgram t.closePosition := by
  unfold State.followsProgram at h ⊢
  exact h

/-- A take that changes no record. -/
theorem State.rederiveMode_followsProgram {s x : State} (hom : x.om = s.om) (hsr : x.sr = s.sr) (hown : x.ownRecord = s.ownRecord) :
    s.followsProgram x.rederiveMode := by
  refine State.followsProgram_same (State.rederiveMode_follows x) hom hsr ?_
  rw [← hown]
  simp [State.ownRecord, State.ownZone]

/-! ## The records and marks after a ZONE SET (R75, R76, R81) -/

theorem ZoneTable.applySet_record (zt : ZoneTable) (f : ZoneSetFields) (marking : Bool) :
    (zt.applySet f marking).records[f.zone] = zt.records[f.zone].apply f := by
  simp [ZoneTable.applySet]

theorem ZoneTable.applySet_mark (zt : ZoneTable) (f : ZoneSetFields) (marking : Bool) :
    (zt.applySet f marking).marks[f.zone] = if marking = true then (zt.marks[f.zone]).apply zt.records[f.zone] f else zt.marks[f.zone] := by
  simp only [ZoneTable.applySet]
  split <;> simp

theorem ZoneTable.applySet_mark_other {zt : ZoneTable} {f : ZoneSetFields} {z : Zone} (h : z ≠ f.zone) (marking : Bool) :
    (zt.applySet f marking).marks[z] = zt.marks[z] := by
  have hval : f.zone.val ≠ z.val := fun e => h (Fin.ext e.symm)
  simp only [ZoneTable.applySet]
  split <;> simp [hval]

theorem State.applyZoneSet_zt (s : State) (f : ZoneSetFields) :
    (s.applyZoneSet f).zt = s.zt.applySet f (s.pt.mode == .joining && !s.pt.joinFlag) := by
  simp [State.applyZoneSet]

/-- The holder list after a change of one zone's program (R150). -/
theorem State.moveHolder_holders (s : State) (zone : Zone) (old new : Option Stream) :
    (s.moveHolder zone old new).tb.holders =
      if s.cl.values.tunerFitted = false ∨ old = new then s.tb.holders
      else (if old = some (s.ownStream .t) then s.tb.holders.filter (· != zone) else s.tb.holders)
        ++ (if new = some (s.ownStream .t) then [zone] else []) := by
  simp only [State.moveHolder]
  by_cases hsame : old = new
  · simp [hsame]
  · rw [if_neg (by simpa using hsame)]
    cases hfitted : s.cl.values.tunerFitted with
    | false => simp [State.setHolders_unfitted hfitted]
    | true =>
      have hmoved : ¬(true = false ∨ old = new) := by simpa using hsame
      rw [State.setHolders_holders hfitted, if_neg hmoved]
      by_cases hnew : new = some (s.ownStream .t) <;> simp [hnew]

theorem State.applyZoneSet_holders (s : State) (f : ZoneSetFields) :
    (s.applyZoneSet f).tb.holders =
      if s.cl.values.tunerFitted = false ∨ s.zt.records[f.zone].program = (s.applyZoneSet f).zt.records[f.zone].program then s.tb.holders
      else (if s.zt.records[f.zone].program = some (s.ownStream .t) then s.tb.holders.filter (· != f.zone) else s.tb.holders)
        ++ (if (s.applyZoneSet f).zt.records[f.zone].program = some (s.ownStream .t) then [f.zone] else []) := by
  rw [State.applyZoneSet_zt]
  simp only [State.applyZoneSet, State.handRecords_tunerHolders, State.moveHolder_holders]
  rfl

theorem State.applyZoneSet_followsProgram {s x : State} (hom : x.om = s.om) (hsr : x.sr = s.sr) (hown : x.ownRecord = s.ownRecord)
    (f : ZoneSetFields) : s.followsProgram (x.applyZoneSet f) := by
  rw [State.applyZoneSet, hown]
  exact State.handRecords_followsProgram (by simpa using hom) (by simpa using hsr)

theorem State.heard_silence {s : State} {cls : BitVec 3} {k : Station} {e : PeerEntry} (h : (s.heard cls k).pt.entries[k] = some e) :
    e.silence = 0 := s.endMark.takeMessage_heard ⟨cls, k⟩ e h

theorem State.heard_mode (s : State) (cls : BitVec 3) (k : Station) :
    (s.heard cls k).pt.mode = s.pt.mode ∧ (s.heard cls k).pt.joinFlag = s.pt.joinFlag := ⟨rfl, rfl⟩

theorem State.heard_ownStream (s : State) (cls : BitVec 3) (k : Station) (src : Source) :
    (s.heard cls k).ownStream src = s.ownStream src := rfl

/-- The take of a ZONE message leaves the parts that the mode and the records cannot reach. -/
theorem State.applyZoneSet_changes (s : State) (k : Station) (f : ZoneSetFields) :
    ChangesOnly (.zt :: modeParts) s ((s.heard 1 k).applyZoneSet f) := by
  intro p hp
  cases p
  case st | sm | cl | rc | pins | draws | pending => simp [State.same]
  all_goals exact absurd (by decide) hp

theorem State.rederiveMode_changes (s : State) (k : Station) : ChangesOnly (.zt :: modeParts) s (s.heard 1 k).rederiveMode := by
  intro p hp
  cases p
  case st | sm | cl | rc | pins | draws | pending => simp [State.same]
  all_goals exact absurd (by decide) hp

/-! ## The records after a ZONE STATE (R80, R81) -/

theorem ZoneTable.applyState_record (zt : ZoneTable) (carried : Vector ZoneRecord 4) (z : Zone) :
    (zt.applyState carried).records[z] = (zt.records[z]).merge zt.marks[z] carried[z] := by
  simp [ZoneTable.applyState]

theorem State.applyZoneState_zt (s : State) (carried : Vector ZoneRecord 4) : (s.applyZoneState carried).zt = s.zt.applyState carried := by
  simp [State.applyZoneState]

/-- The holder list rebuilt from the four records (R150). -/
theorem State.rebuildHolders_holders (s : State) :
    s.rebuildHolders.tb.holders =
      if s.cl.values.tunerFitted = true then (List.finRange 4).filter fun z => s.zt.records[z].program == some (s.ownStream .t)
      else s.tb.holders := by
  simp only [State.rebuildHolders]
  split
  next hfitted => exact State.setHolders_holders hfitted _
  next hfitted => rw [State.setHolders_unfitted (Bool.eq_false_iff.mpr hfitted)]

theorem State.applyZoneState_holders (s : State) (carried : Vector ZoneRecord 4) :
    (s.applyZoneState carried).tb.holders =
      if s.cl.values.tunerFitted = true then
        (List.finRange 4).filter fun z => (s.applyZoneState carried).zt.records[z].program == some (s.ownStream .t)
      else s.tb.holders := by
  rw [State.applyZoneState_zt]
  simp only [State.applyZoneState, State.handRecords_tunerHolders, State.rebuildHolders_holders]
  rfl

theorem State.applyZoneState_changes (s : State) (k : Station) (carried : Vector ZoneRecord 4) :
    ChangesOnly (.zt :: modeParts) s ((s.heard 1 k).applyZoneState carried) := by
  intro p hp
  cases p
  case st | sm | cl | rc | pins | draws | pending => simp [State.same]
  all_goals exact absurd (by decide) hp

theorem exec_zoneState_joining {k : Station} {p : List Byte} {s : State} (htakes : s.takes = true) (hmode : s.pt.mode = .joining)
    {carried : Vector ZoneRecord 4} (hcarried : zoneStateFields p = some carried) :
    exec (.zoneState k p) s = .next ((s.heard 1 k).applyZoneState carried).closePosition := by
  refine congrArg Host.Outcome.next ((State.onTake_takes htakes _ _).trans ?_)
  split
  next x records _ hrecords => rw [Option.some.inj (hcarried.symm.trans hrecords), State.heard]
  next hother => exact (hother _ hmode hcarried).elim

theorem exec_zoneState_other {k : Station} {p : List Byte} {s : State} (htakes : s.takes = true)
    (hother : s.pt.mode = .joining → ¬(zoneStateFields p).isSome = true) :
    exec (.zoneState k p) s = .next (s.heard 1 k).rederiveMode.closePosition := by
  refine congrArg Host.Outcome.next ((State.onTake_takes htakes _ _).trans ?_)
  split
  next hmode hrecords => exact absurd (by rw [hrecords]; rfl) (hother hmode)
  next => rw [State.heard]

end Sys2Proof.Machine

namespace Sys2Proof.Proofs

open Sys2Proof.Machine

/-- Settles O27, by the fields of the message: the record and its marks, the tuner's holders, and the receiver. -/
theorem zoneSetsAreApplied : Obligations.ZoneSetsAreApplied := by
  intro k p s htakes
  refine ⟨_, congrArg Host.Outcome.next (State.onTake_takes htakes _ _), ?_⟩
  have hheard : s.endMark.takeMessage ⟨1, k⟩ = s.heard 1 k := rfl
  rw [hheard]
  cases hfields : zoneSetFields p with
  | none =>
    refine ⟨by simp, (State.rederiveMode_followsProgram (x := s.heard 1 k) rfl rfl rfl).closePosition, by simp, fun e he => ?_,
      State.closePosition_changes (s.rederiveMode_changes k) (by decide) (by decide) (by decide)⟩
    exact State.heard_silence (cls := 1) (by simpa using he)
  | some f =>
    have hzt : ((s.heard 1 k).applyZoneSet f).closePosition.zt = s.zt.applySet f (s.pt.mode == .joining && !s.pt.joinFlag) := by
      simpa [State.heard_mode] using (s.heard 1 k).applyZoneSet_zt f
    have hrecord : ((s.heard 1 k).applyZoneSet f).closePosition.zt.records[f.zone] = s.zt.records[f.zone].apply f := by
      rw [hzt, ZoneTable.applySet_record]
    refine ⟨⟨fun z hz => ?_, ?_, ?_, ?_⟩, (State.applyZoneSet_followsProgram (x := s.heard 1 k) rfl rfl rfl f).closePosition, ?_, fun e he => ?_,
      State.closePosition_changes (s.applyZoneSet_changes k f) (by decide) (by decide) (by decide)⟩
    · rw [hzt]
      exact ⟨ZoneTable.applySet_program_other hz _, ZoneTable.applySet_mark_other hz _⟩
    · dsimp only
      rw [hrecord, hzt, ZoneTable.applySet_mark]
      by_cases hmarking : s.pt.mode = .joining ∧ s.pt.joinFlag = false
      · rw [if_pos hmarking, if_pos (by simpa using hmarking)]
        exact ⟨rfl, rfl, rfl, by simp [ZoneMarks.apply, or_assoc], by simp [ZoneMarks.apply, or_assoc]⟩
      · rw [if_neg hmarking, if_neg (by simpa using hmarking)]
    · dsimp only
      exact (s.heard 1 k).applyZoneSet_holders f
    · rw [hrecord]
      refine ⟨rfl, rfl, rfl, ?_⟩
      rfl
    · rw [hzt]
      rfl
    · exact State.heard_silence (cls := 1) (by simpa using he)

/-- Settles O28: a JOINING station fills its unmarked fields and rebuilds the tuner's holders, and every other take re-derives the mode alone. -/
theorem zoneStatesFillRecords : Obligations.ZoneStatesFillRecords := by
  intro k p s htakes
  by_cases hfills : s.pt.mode = .joining ∧ (zoneStateFields p).isSome = true
  · obtain ⟨hjoining, hsome⟩ := hfills
    obtain ⟨carried, hcarried⟩ := Option.isSome_iff_exists.mp hsome
    refine ⟨_, exec_zoneState_joining htakes hjoining hcarried, ?_⟩
    have hzt : ((s.heard 1 k).applyZoneState carried).closePosition.zt = s.zt.applyState carried := by
      simpa using (s.heard 1 k).applyZoneState_zt carried
    simp only [hjoining, hcarried]
    refine ⟨fun z => by rw [hzt]; exact ZoneTable.applyState_record _ _ z, ?_, by rw [hzt]; rfl, by rw [hzt]; rfl, fun e he => ?_,
      State.closePosition_changes (s.applyZoneState_changes k carried) (by decide) (by decide) (by decide)⟩
    · simpa [State.heard_ownStream] using (s.heard 1 k).applyZoneState_holders carried
    · exact State.heard_silence (cls := 1) (by simpa using he)
  · refine ⟨_, exec_zoneState_other htakes (not_and.mp hfills), ?_, ?_, by simp, by simp, fun e he => ?_,
      State.closePosition_changes (s.rederiveMode_changes k) (by decide) (by decide) (by decide)⟩
    · split
      next hmode hrecords => exact absurd ⟨hmode, by rw [hrecords]; rfl⟩ hfills
      next => simp
    · rw [if_neg fun ⟨hmode, hsome, _⟩ => hfills ⟨hmode, hsome⟩]
      simp
    · exact State.heard_silence (cls := 1) (by simpa using he)

end Sys2Proof.Proofs
end

section
/-! Proofs about the tuner's requests (R152 to R158): acceptance, and what a PRESET RECALL makes of the record that the store reads. -/

namespace Sys2Proof.Machine

/-! ## Acceptance (R152, R153) -/

/-- The conditions under which a tuner request from a zone passes the tests that do not look at its fields (R152). -/
structure State.OpenTo (s : State) (p : List Byte) (z : Zone) : Prop where
  fitted : s.cl.values.tunerFitted = true
  requester : requesterZone p = some z
  held : s.tb.holders = [] ∨ s.tb.holders.head? = some z
  awake : s.pt.mode ≠ .standby

theorem State.OpenTo.tunerTest {s : State} {p : List Byte} {z : Zone} (h : s.OpenTo p z) : s.tunerTest (requesterZone p) true = none := by
  obtain ⟨hfitted, hzone, hheld, hawake⟩ := h
  have hfree : (s.tb.holders != [] && s.tb.holders.head? != some z) = false := by
    rcases hheld with hnil | hhead
    · simp [hnil]
    · simp [hhead]
  simp [State.tunerTest, hfitted, hzone, hfree, hawake]

theorem State.OpenTo.requesterAt {s : State} {p : List Byte} {z : Zone} (h : s.OpenTo p z) (k : Station) : s.requesterAt k p = ⟨k, z⟩ := by
  simp [State.requesterAt, h.requester]

theorem State.OpenTo.heard {s : State} {p : List Byte} {z : Zone} (h : s.OpenTo p z) (cls : BitVec 3) (k : Station) :
    (s.heard cls k).OpenTo p z := ⟨h.fitted, h.requester, h.held, h.awake⟩

theorem State.OpenTo.tunerRequest {α : Type} {s : State} {p : List Byte} {z : Zone} (h : s.OpenTo p z) (k : Station) (kind : RequestKind)
    {fields : Option α} {x : α} (hfields : fields = some x) (start : State → Requester → α → State) :
    s.tunerRequest k p kind fields start = start s ⟨k, z⟩ x := by
  subst hfields
  simp only [State.tunerRequest, Option.isSome_some, h.tunerTest, h.requesterAt]

theorem State.channelFields_some {s : State} {p : List Byte} {band : Band} {freq : Nat} (hfields : tuneFields p = some (band, freq))
    (hvalid : validChannel s.cl.values.plan band freq = true) : s.channelFields p = some (band, freq) := by
  simp [State.channelFields, hfields, hvalid]

theorem State.offerReply_room {s : State} (h : s.hasRoom = true) (r : Requester) (k : RequestKind) (o : ReplyOutcome) (v : Option Nat) :
    (s.offerReply r k o v).replied r k o v := State.offerReply_replied (by simpa [State.hasRoom] using h) r k o v

/-- An operation in flight is aborted with its REPLY (R153). -/
theorem State.abortOperation_replied {s : State} (h : s.hasRoom = true) {old : Operation} (hop : s.tb.op = some old) :
    s.abortOperation.replied old.requester old.kind.request .aborted none := by
  have hended := State.offerReply_room (s := s.setTuner (s.tb.leaveScan old)) h old.requester old.kind.request .aborted none
  simp only [State.abortOperation, hop]
  split <;> exact hended

/-- The tuner at acceptance: the operation in flight is aborted and the new one stands (R153). -/
theorem State.startOperation_tb (s : State) (op : Operation) :
    (s.startOperation op).tb.op = some op ∧ (s.startOperation op).tb.unheld = 0 ∧ (s.startOperation op).tb.band = s.tb.band
      ∧ (s.startOperation op).tb.freq = s.tb.freq ∧ (s.startOperation op).tb.state = s.tb.state
      ∧ ∀ b, (s.startOperation op).tb.list b = s.tb.listAborted b := by
  obtain ⟨-, hband, hfreq, -, hstate, hlist⟩ := s.abortOperation_tb
  exact ⟨rfl, rfl, hband, hfreq, hstate, fun b => (Tuner.list_congr rfl rfl b).trans (hlist b)⟩

theorem State.startOperation_replied {s : State} (h : s.hasRoom = true) {old : Operation} (hop : s.tb.op = some old) (op : Operation) :
    (s.startOperation op).replied old.requester old.kind.request .aborted none := State.abortOperation_replied h hop

theorem State.heard_hasRoom {s : State} (h : s.hasRoom = true) (cls : BitVec 3) (k : Station) : (s.heard cls k).hasRoom = true :=
  decide_eq_true (State.takeMessage_room (f := ⟨cls, k⟩) h)

/-! ## TUNE, SEEK and SCAN (R155 to R157) -/

theorem State.startTune_tb (s : State) (r : Requester) (band : Band) (freq : Nat) :
    (s.startTune r band freq).tb.op = some { s.newOperation .tune r band .tuning with target := some freq }
      ∧ (s.startTune r band freq).tb.state = .settling ∧ (s.startTune r band freq).tb.band = band ∧ (s.startTune r band freq).tb.freq = freq
      ∧ (s.startTune r band freq).tb.phase = settleTime band ∧ (s.startTune r band freq).tb.unheld = 0
      ∧ ∀ b, (s.startTune r band freq).tb.list b = s.tb.listAborted b := by
  obtain ⟨-, -, -, -, -, hlist⟩ := s.startOperation_tb (s.newOperation .tune r band .tuning)
  exact ⟨rfl, rfl, rfl, rfl, rfl, rfl, fun b => (Tuner.list_congr rfl rfl b).trans (hlist b)⟩

theorem State.startSeek_tb (s : State) (r : Requester) (direction : Direction) :
    (s.startSeek r direction).tb.op =
        some { s.newOperation .seek r s.tb.band .stepping with
          direction := direction, target := some (nextChannel s.cl.values.plan s.tb.band s.tb.freq direction) }
      ∧ (s.startSeek r direction).tb.state = .settling ∧ (s.startSeek r direction).tb.band = s.tb.band
      ∧ (s.startSeek r direction).tb.freq = nextChannel s.cl.values.plan s.tb.band s.tb.freq direction
      ∧ (s.startSeek r direction).tb.unheld = 0 ∧ ∀ b, (s.startSeek r direction).tb.list b = s.tb.listAborted b := by
  obtain ⟨-, -, hband, -, -, hlist⟩ := s.startOperation_tb { s.newOperation .seek r s.tb.band .stepping with direction := direction }
  exact ⟨rfl, rfl, hband, rfl, rfl, fun b => (Tuner.list_congr rfl rfl b).trans (hlist b)⟩

/-- A SCAN empties the list of the band (R157). -/
theorem State.startScan_tb (s : State) (r : Requester) :
    (s.startScan r).tb.op =
        some { s.newOperation .scan r s.tb.band .stepping with target := some (lowestChannel s.cl.values.plan s.tb.band) }
      ∧ (s.startScan r).tb.state = .settling ∧ (s.startScan r).tb.band = s.tb.band
      ∧ (s.startScan r).tb.freq = lowestChannel s.cl.values.plan s.tb.band ∧ (s.startScan r).tb.unheld = 0
      ∧ (s.startScan r).tb.list s.tb.band = { entries := [], complete := false }
      ∧ ∀ other, other ≠ s.tb.band → (s.startScan r).tb.list other = s.tb.listAborted other := by
  obtain ⟨-, hunheld, hband, -, -, hlist⟩ := s.startOperation_tb (s.newOperation .scan r s.tb.band .stepping)
  obtain ⟨hemptied, hother, hkept⟩ := (s.startOperation (s.newOperation .scan r s.tb.band .stepping)).scanStep_tb
    (s.newOperation .scan r s.tb.band .stepping) StationList.empty .stepping (lowestChannel s.cl.values.plan s.tb.band)
  obtain ⟨-, -, -, -, -, -, -, hcount⟩ := (s.startOperation (s.newOperation .scan r s.tb.band .stepping)).tb.setList_rest
    (s.startOperation (s.newOperation .scan r s.tb.band .stepping)).tb.band StationList.empty
  exact ⟨rfl, rfl, hkept.trans hband, rfl, hcount.trans hunheld, (congrArg _ hband.symm).trans hemptied,
    fun other hne => (hother other fun h => hne (h.trans hband)).trans (hlist other)⟩

theorem State.startTune_replied {s : State} (h : s.hasRoom = true) {old : Operation} (hop : s.tb.op = some old)
    (r : Requester) (band : Band) (freq : Nat) :
    (s.startTune r band freq).replied old.requester old.kind.request .aborted none :=
  State.startOperation_replied h hop (s.newOperation .tune r band .tuning)

theorem State.startSeek_replied {s : State} (h : s.hasRoom = true) {old : Operation} (hop : s.tb.op = some old)
    (r : Requester) (direction : Direction) :
    (s.startSeek r direction).replied old.requester old.kind.request .aborted none :=
  State.startOperation_replied h hop { s.newOperation .seek r s.tb.band .stepping with direction := direction }

theorem State.startScan_replied {s : State} (h : s.hasRoom = true) {old : Operation} (hop : s.tb.op = some old)
    (r : Requester) :
    (s.startScan r).replied old.requester old.kind.request .aborted none :=
  State.startOperation_replied h hop (s.newOperation .scan r s.tb.band .stepping)

/-- The close of the position keeps the REPLY to an aborted operation. -/
theorem State.closePosition_replied {s : State} {r : Requester} {k : RequestKind} {o : ReplyOutcome} {v : Option Nat} (h : s.replied r k o v) :
    s.closePosition.replied r k o v := State.closePosition_queued rfl rfl h

theorem State.startTune_changes (s : State) (k : Station) (r : Requester) (band : Band) (freq : Nat) :
    ChangesOnly [.lc, .pt, .tb, .ps, .cr] s ((s.heard 2 k).startTune r band freq).closePosition := by
  intro p hp
  cases p
  case lc | pt | tb | ps | cr => exact absurd (by decide) hp
  all_goals simp [State.same]

theorem State.startSeek_changes (s : State) (k : Station) (r : Requester) (direction : Direction) :
    ChangesOnly [.lc, .pt, .tb, .ps, .cr] s ((s.heard 2 k).startSeek r direction).closePosition := by
  intro p hp
  cases p
  case lc | pt | tb | ps | cr => exact absurd (by decide) hp
  all_goals simp [State.same]

theorem State.startScan_changes (s : State) (k : Station) (r : Requester) :
    ChangesOnly [.lc, .pt, .tb, .ps, .cr] s ((s.heard 2 k).startScan r).closePosition := by
  intro p hp
  cases p
  case lc | pt | tb | ps | cr => exact absurd (by decide) hp
  all_goals simp [State.same]

end Sys2Proof.Machine

namespace Sys2Proof.Proofs

open Sys2Proof.Machine

/-- Settles O43: the tests pass, the operation in flight is aborted, and the new one starts. -/
theorem tunerRequestsStart : Obligations.TunerRequestsStart := by
  intro k p z s htakes haddressed hfitted hrequester hheld hawake
  have hopen : (s.heard 2 k).OpenTo p z := (State.OpenTo.mk hfitted hrequester hheld hawake).heard 2 k
  refine ⟨fun band freq hfields hvalid => ?_, fun direction hdirection => ?_, ?_⟩
  · have hexec : exec (.tune k p) s = .next ((s.heard 2 k).startTune ⟨k, z⟩ band freq).closePosition := by
      refine congrArg Host.Outcome.next ((State.onRequest_heard htakes haddressed _ _ _).trans (congrArg State.closePosition ?_))
      exact hopen.tunerRequest k .tune (State.channelFields_some (s := s.heard 2 k) hfields hvalid) _
    obtain ⟨hop, hstate, hband, hfreq, hphase, hunheld, hlist⟩ := (s.heard 2 k).startTune_tb ⟨k, z⟩ band freq
    exact ⟨_, _, hexec, hop, rfl, rfl, rfl, rfl, rfl, hstate, hband, hfreq, hphase, hunheld, by simp, hlist,
      fun old hold hroom => State.closePosition_replied (State.startTune_replied (State.heard_hasRoom hroom 2 k) hold _ _ _),
      s.startTune_changes k _ band freq⟩
  · have hexec : exec (.seek k p) s = .next ((s.heard 2 k).startSeek ⟨k, z⟩ direction).closePosition := by
      refine congrArg Host.Outcome.next ((State.onRequest_heard htakes haddressed _ _ _).trans (congrArg State.closePosition ?_))
      exact hopen.tunerRequest k .seek hdirection _
    obtain ⟨hop, hstate, hband, hfreq, hunheld, hlist⟩ := (s.heard 2 k).startSeek_tb ⟨k, z⟩ direction
    exact ⟨_, _, hexec, hop, rfl, rfl, rfl, rfl, rfl, rfl, hstate, hband, hfreq, hunheld, by simp, hlist,
      fun old hold hroom => State.closePosition_replied (State.startSeek_replied (State.heard_hasRoom hroom 2 k) hold _ _),
      s.startSeek_changes k _ direction⟩
  · have hexec : exec (.scan k p) s = .next ((s.heard 2 k).startScan ⟨k, z⟩).closePosition := by
      refine congrArg Host.Outcome.next ((State.onRequest_heard htakes haddressed _ _ _).trans (congrArg State.closePosition ?_))
      exact hopen.tunerRequest k .scan rfl _
    obtain ⟨hop, hstate, hband, hfreq, hunheld, hemptied, hlist⟩ := (s.heard 2 k).startScan_tb ⟨k, z⟩
    exact ⟨_, _, hexec, hop, rfl, rfl, rfl, rfl, rfl, hstate, hband, hfreq, hunheld, hemptied, hlist,
      fun old hold hroom => State.closePosition_replied (State.startScan_replied (State.heard_hasRoom hroom 2 k) hold _), by simp,
      s.startScan_changes k _⟩

end Sys2Proof.Proofs
end

section
/-! Proofs about reads of the preset store (R158, R172, R173), and the laws of its engine that they share with the record steps. -/

namespace Sys2Proof.Machine

/-! ## The engine between steps (R168) -/

theorem State.engineBegin_stands {s : State} (h : s.engineMayBegin = false) : s.engineBegin = s := by
  simp [State.engineBegin, h]

theorem State.engineMayBegin_false {s : State} (h : s.ps.engine ≠ .idle ∨ s.ps.reads ≠ [] ∨ s.sm ≠ .normal) : s.engineMayBegin = false := by
  rcases h with hengine | hreads | hsupply
  · simp [State.engineMayBegin, hengine]
  · simp [State.engineMayBegin, hreads]
  · simp [State.engineMayBegin, hsupply]

/-- An engine with nothing to do stays IDLE. -/
theorem State.engineBegin_empty {s : State} (hqueue : s.ps.queue = []) (hcompaction : s.ps.compaction = none) : s.engineBegin = s := by
  have hstands : { s.ps with queue := [] } = s.ps := by rw [← hqueue]
  rw [State.engineBegin, hcompaction, hqueue]
  split
  · exact congrArg (fun ps => { s with ps := ps }) hstands
  · rfl

theorem State.takeEntries_reads (s : State) (q : List StoreEntry) : (s.takeEntries q).ps.reads = s.ps.reads := by
  induction q generalizing s with
  | nil => rfl
  | cons e rest ih =>
    unfold State.takeEntries
    (repeat' split)
    · exact ih _
    · rfl
    · rfl

theorem State.engineBegin_reads (s : State) : s.engineBegin.ps.reads = s.ps.reads := by
  simp only [State.engineBegin]
  (repeat' split)
  · rfl
  · exact s.takeEntries_reads _
  · rfl

/-- What the engine offers keeps each message that reports nothing. -/
theorem State.engineBegin_queued {s : State} {m : Msg} (hpresence : m.isPresence = false) (hstatus : m.isStatus = false) (h : s.queued m) :
    s.engineBegin.queued m :=
  (State.engineBegin_offers (z := false) s (.refl _ _)).keepsMsg hpresence hstatus h

/-! ## The completion of a read (R172, R173) -/

theorem exec_readComplete {s : State} {r : Read} {rest : List Read} (hservice : s.ps.readInService = true) (hreads : s.ps.reads = r :: rest) :
    exec .readComplete s = .next (s.completeRead r rest).closeEvent := by
  refine congrArg Host.Outcome.next ?_
  rw [hservice, hreads]

theorem State.completeRead_reads (s : State) (r : Read) (rest : List Read) : (s.completeRead r rest).ps.reads = rest := by
  simp only [State.completeRead, State.engineBegin_reads, State.deliverRead_frame]
  rfl

theorem State.completeRead_changes (s : State) (r : Read) (rest : List Read) :
    ChangesOnly [.lc, .pt, .tb, .ps, .cr] s (s.completeRead r rest).closeEvent := by
  intro p hp
  cases p
  case lc | pt | tb | ps | cr => exact absurd (by decide) hp
  all_goals simp [State.same]

/-- The message that the completion of a read offers stands in the queue. -/
theorem State.completeRead_queued {s : State} {r : Read} {rest : List Read} {m : Msg} (hpresence : m.isPresence = false)
    (hstatus : m.isStatus = false) (h : ((s.setStore (s.ps.afterRead rest)).deliverRead r).queued m) : (s.completeRead r rest).closeEvent.queued m :=
  State.closeEvent_queued hpresence hstatus (State.engineBegin_queued hpresence hstatus h)

theorem State.deliverRead_recall (s : State) (rest : List Read) (number : Fin 30) :
    (s.setStore (s.ps.afterRead rest)).deliverRead ⟨number, .recall⟩ =
      (s.setStore (s.ps.afterRead rest)).recallResult ((s.ps.index[number]).map (slotAt s.ps.sectors)) := rfl

theorem State.endOperation_replied {s : State} (h : s.hasRoom = true) (op : Operation) (o : ReplyOutcome) (v : Option Nat) :
    (s.endOperation op o v).replied op.requester op.kind.request o v := State.offerReply_room h _ _ _ _

/-- The tuner after an operation has ended there (R158, R159). -/
def Tuner.opEnded (tb : Tuner) : Tuner := { tb with op := none, unheld := 0, taken := { tb.taken with unheld := false } }

theorem State.recallResult_none {s : State} {op : Operation} (hop : s.tb.op = some op) : s.recallResult none = s.endOperation op .empty := by
  simp only [State.recallResult, hop]

theorem State.recallResult_valid {s : State} {op : Operation} (hop : s.tb.op = some op) {r : RecordSlot}
    (hvalid : validChannel s.cl.values.plan r.readBand r.freq.toNat = true) :
    s.recallResult (some r) =
      s.setTuner { s.tb.settle r.readBand r.freq.toNat with
        op := some { op with band := r.readBand, stage := .tuning, target := some r.freq.toNat } } := by
  simp only [State.recallResult, hop, hvalid, if_true]

theorem State.recallResult_invalid {s : State} {op : Operation} (hop : s.tb.op = some op) {r : RecordSlot}
    (hvalid : ¬validChannel s.cl.values.plan r.readBand r.freq.toNat = true) : s.recallResult (some r) = s.endOperation op .badValue := by
  simp only [State.recallResult, hop]
  exact if_neg hvalid

/-! ## An accepted PRESET RECALL (R158) -/

theorem PresetStore.abandonRecall_length (ps : PresetStore) : ps.abandonRecall.reads.length = ps.reads.length := by
  simp [PresetStore.abandonRecall]

theorem State.abortOperation_reads (s : State) :
    s.abortOperation.ps.reads.length = s.ps.reads.length ∧ (s.tb.op = none → s.abortOperation = s) := by
  cases hop : s.tb.op with
  | none =>
    simp only [State.abortOperation, hop]
    exact ⟨trivial, fun _ => trivial⟩
  | some op =>
    refine ⟨?_, fun h => absurd h (by simp)⟩
    simp only [State.abortOperation, hop]
    split
    · exact s.ps.abandonRecall_length
    · simp

theorem State.enterRead_reads (s : State) (r : Read) : (s.enterRead r).ps.reads = s.ps.reads ++ [r] := by
  simp only [State.enterRead]
  split <;> rfl

/-- The operation that a PRESET RECALL forms. -/
def State.recallOperation (s : State) (r : Requester) (number : Fin 30) : Operation :=
  { s.newOperation .recall r s.tb.band .awaiting with preset := number.val + 1 }

/-- An accepted PRESET RECALL before its read: the operation awaits its record, and the tuner is powered. -/
def State.awaitsRecord (s : State) (r : Requester) (number : Fin 30) : State :=
  let started := s.startOperation (s.recallOperation r number)
  if started.tb.state == .off then started.setTuner started.tb.resume else started

theorem State.startRecall_eq (s : State) (r : Requester) (number : Fin 30) :
    s.startRecall r number =
      if (s.awaitsRecord r number).readsFull = true then (s.awaitsRecord r number).recallResult none
      else (s.awaitsRecord r number).enterRead { number := number, origin := .recall } := rfl

theorem State.awaitsRecord_tb (s : State) (r : Requester) (number : Fin 30) :
    (s.awaitsRecord r number).tb.op = some (s.recallOperation r number)
      ∧ (s.awaitsRecord r number).tb.state = (if s.tb.state = .off then .settling else s.tb.state)
      ∧ (s.awaitsRecord r number).tb.band = s.tb.band ∧ (s.awaitsRecord r number).tb.freq = s.tb.freq := by
  obtain ⟨hop, -, hband, hfreq, hstate, -⟩ := s.startOperation_tb (s.recallOperation r number)
  simp only [State.awaitsRecord]
  by_cases hoff : s.tb.state = .off
  · rw [if_pos (by simp [hstate, hoff]), if_pos hoff]
    exact ⟨hop, rfl, hband, hfreq⟩
  · rw [if_neg (by simp [hstate, hoff]), if_neg hoff]
    exact ⟨hop, hstate, hband, hfreq⟩

theorem State.awaitsRecord_store (s : State) (r : Requester) (number : Fin 30) :
    (s.awaitsRecord r number).ps = s.abortOperation.ps ∧ (s.awaitsRecord r number).lc = s.abortOperation.lc := by
  simp only [State.awaitsRecord]
  split <;> exact ⟨rfl, rfl⟩

theorem State.startRecall_tb (s : State) (r : Requester) (number : Fin 30) :
    (s.startRecall r number).tb.state = (if s.tb.state = .off then .settling else s.tb.state) ∧ (s.startRecall r number).tb.band = s.tb.band
      ∧ (s.startRecall r number).tb.freq = s.tb.freq := by
  obtain ⟨hop, hstate, hband, hfreq⟩ := s.awaitsRecord_tb r number
  rw [State.startRecall_eq]
  split
  · rw [State.recallResult_none hop]
    exact ⟨hstate, hband, hfreq⟩
  · simp only [State.enterRead_frame]
    exact ⟨hstate, hband, hfreq⟩

/-- An accepted PRESET RECALL whose read the list takes. -/
theorem State.startRecall_enters {s : State} (h : s.ps.reads.length < 16) (r : Requester) (number : Fin 30) :
    (∃ op, (s.startRecall r number).tb.op = some op ∧ op.kind = .recall ∧ op.requester = r ∧ op.stage = .awaiting ∧ op.target = none)
      ∧ (s.startRecall r number).ps.reads.length = s.ps.reads.length + 1
      ∧ (s.startRecall r number).ps.reads.getLast? = some { number := number, origin := .recall } := by
  obtain ⟨hop, -⟩ := s.awaitsRecord_tb r number
  obtain ⟨hstore, -⟩ := s.awaitsRecord_store r number
  have hlength : (s.awaitsRecord r number).ps.reads.length = s.ps.reads.length := by rw [hstore, s.abortOperation_reads.1]
  have hroom : ¬(s.awaitsRecord r number).readsFull = true := by
    simp only [State.readsFull, hlength, decide_eq_true_eq]
    omega
  rw [State.startRecall_eq, if_neg hroom, State.enterRead_reads]
  refine ⟨⟨s.recallOperation r number, by simpa using hop, rfl, rfl, rfl, rfl⟩, ?_, by simp⟩
  rw [List.length_append, hlength]
  rfl

/-- Where the read list is full an accepted PRESET RECALL ends at once (R172). -/
theorem State.startRecall_full {s : State} (h : 16 ≤ s.ps.reads.length) (hnone : s.tb.op = none) (hroom : s.hasRoom = true) (r : Requester)
    (number : Fin 30) :
    (s.startRecall r number).tb.op = none ∧ (s.startRecall r number).ps.reads = s.ps.reads
      ∧ (s.startRecall r number).replied r .presetRecall .empty none := by
  obtain ⟨hop, -⟩ := s.awaitsRecord_tb r number
  obtain ⟨hstore, hqueue⟩ := s.awaitsRecord_store r number
  rw [s.abortOperation_reads.2 hnone] at hstore hqueue
  have hfull : (s.awaitsRecord r number).readsFull = true := by simpa [State.readsFull, hstore] using h
  rw [State.startRecall_eq, if_pos hfull, State.recallResult_none hop]
  refine ⟨rfl, by simp [hstore], State.endOperation_replied ?_ _ _ _⟩
  simpa [State.hasRoom, hqueue] using hroom

theorem State.startRecall_changes (s : State) (k : Station) (r : Requester) (number : Fin 30) :
    ChangesOnly [.lc, .pt, .tb, .ps, .cr, .draws] s ((s.heard 2 k).startRecall r number).closePosition := by
  intro p hp
  cases p
  case lc | pt | tb | ps | cr | draws => exact absurd (by decide) hp
  all_goals simp [State.same]

/-! ## PRESET READ (R172, R173) -/

theorem State.onPresetRead_enters {s : State} {p : List Byte} {z : Zone} {number : Fin 30} (hzone : requesterZone p = some z)
    (hpreset : presetAt p = some number) (hspace : s.ps.reads.length < 16) (k : Station) :
    s.onPresetRead k p = s.enterRead { number := number, origin := .presetRead ⟨k, z⟩ } := by
  simp only [State.onPresetRead, hzone, hpreset, State.readsFull]
  exact if_neg (by simpa using hspace)

theorem State.onPresetRead_busy {s : State} {p : List Byte} {z : Zone} {number : Fin 30} (hzone : requesterZone p = some z)
    (hpreset : presetAt p = some number) (hfull : ¬s.ps.reads.length < 16) (k : Station) :
    s.onPresetRead k p = s.refuse k p .presetRead .busy := by
  simp only [State.onPresetRead, hzone, hpreset, State.readsFull]
  exact if_pos (by simpa using hfull)

theorem State.onPresetRead_badValue {s : State} {p : List Byte} (h : requesterZone p = none ∨ presetAt p = none) (k : Station) :
    s.onPresetRead k p = s.refuse k p .presetRead .badValue := by
  rcases h with hzone | hpreset
  · simp only [State.onPresetRead, hzone]
  · cases hzone : requesterZone p with
    | none => simp only [State.onPresetRead, hzone]
    | some z => simp only [State.onPresetRead, hzone, hpreset]

/-- A read entered: in IDLE its service starts, and a step in progress is suspended (R173). -/
theorem State.enterRead_store (s : State) (r : Read) :
    (s.enterRead r).ps.reads = s.ps.reads ++ [r]
      ∧ (s.ps.engine = .idle → (s.enterRead r).ps.engine = .idle ∧ (s.enterRead r).ps.readInService = true)
      ∧ (∀ step, s.ps.engine = .running step → (s.enterRead r).ps.engine = .suspended step ∧ (s.enterRead r).ps.remaining ≤ s.ps.remaining)
      ∧ (∀ step, s.ps.engine = .suspended step →
        (s.enterRead r).ps.engine = .suspended step ∧ (s.enterRead r).ps.remaining = s.ps.remaining) := by
  refine ⟨s.enterRead_reads r, fun hidle => ?_, fun step hrunning => ?_, fun step hsuspended => ?_⟩
  · simp only [State.enterRead, hidle]
    exact ⟨rfl, rfl⟩
  · simp only [State.enterRead, hrunning]
    exact ⟨rfl, Nat.min_le_right _ _⟩
  · simp only [State.enterRead, hsuspended]
    exact ⟨rfl, rfl⟩

theorem State.enterRead_changes (s : State) (k : Station) (r : Read) :
    ChangesOnly [.lc, .pt, .ps, .cr, .draws] s ((s.heard 2 k).enterRead r).closePosition := by
  intro p hp
  cases p
  case lc | pt | ps | cr | draws => exact absurd (by decide) hp
  all_goals simp [State.same]

/-- The completion of a PRESET READ while a step waits: no other step begins. -/
theorem State.completeRead_suspended {s : State} {step : StoreStep} (h : s.ps.engine = .suspended step) (number : Fin 30) (requester : Requester)
    (rest : List Read) :
    (s.completeRead ⟨number, .presetRead requester⟩ rest).ps =
      { s.ps with reads := rest, readInService := rest != [], engine := if rest = [] then .running step else .suspended step } := by
  have hafter : s.ps.afterRead rest =
      { s.ps with reads := rest, readInService := rest != [], engine := if rest = [] then .running step else .suspended step } := by
    cases rest <;> simp [PresetStore.afterRead, h]
  have hbusy : ((s.setStore (s.ps.afterRead rest)).deliverRead ⟨number, .presetRead requester⟩).engineMayBegin = false := by
    refine State.engineMayBegin_false (.inl ?_)
    rw [hafter]
    simp only [State.deliverRead_frame]
    cases rest <;> simp [State.setStore]
  rw [State.completeRead, State.engineBegin_stands hbusy]
  simp only [State.deliverRead_frame]
  exact hafter

theorem State.completeRead_presetRead_changes (s : State) (number : Fin 30) (requester : Requester) (rest : List Read) :
    ChangesOnly [.lc, .pt, .ps, .cr] s (s.completeRead ⟨number, .presetRead requester⟩ rest).closeEvent := by
  intro p hp
  cases p
  case lc | pt | ps | cr => exact absurd (by decide) hp
  all_goals simp [State.same, State.completeRead, State.deliverRead]

end Sys2Proof.Machine

namespace Sys2Proof.Proofs

open Sys2Proof.Machine

/-- Settles O44: the result of the read at its completion, the read of an aborted RECALL, and the acceptance. -/
theorem recallsReadTheStore : Obligations.RecallsReadTheStore := by
  refine ⟨fun number rest op s hservice hreads hop hroom => ?_, fun number rest s hservice hreads => ?_,
    fun k p z number s htakes haddressed hfitted hrequester hheld hawake hpreset hroom => ?_⟩
  · refine ⟨_, s.tb.opEnded, exec_readComplete hservice hreads, State.completeRead_reads _ _ _, rfl, ?_, State.completeRead_changes _ _ _⟩
    have hserved : (s.setStore (s.ps.afterRead rest)).tb.op = some op := hop
    have hspace : (s.setStore (s.ps.afterRead rest)).hasRoom = true := hroom
    have htb : (s.completeRead ⟨number, .recall⟩ rest).closeEvent.tb =
        ((s.setStore (s.ps.afterRead rest)).recallResult ((s.ps.index[number]).map (slotAt s.ps.sectors))).tb := by
      rw [← State.deliverRead_recall]
      simp [State.completeRead]
    cases hindex : s.ps.index[number] with
    | none =>
      rw [hindex] at htb
      dsimp only
      refine ⟨State.completeRead_queued rfl rfl ?_, htb.trans (by rw [Option.map_none, State.recallResult_none hserved]; rfl)⟩
      rw [State.deliverRead_recall, hindex, Option.map_none, State.recallResult_none hserved]
      exact State.endOperation_replied hspace _ _ _
    | some ref =>
      rw [hindex] at htb
      dsimp only
      split
      next hvalid =>
        rw [htb, Option.map_some, State.recallResult_valid hserved hvalid]
        exact ⟨rfl, rfl, rfl, rfl, rfl, rfl, rfl, rfl⟩
      next hvalid =>
        refine ⟨State.completeRead_queued rfl rfl ?_, htb.trans ?_⟩
        · rw [State.deliverRead_recall, hindex, Option.map_some, State.recallResult_invalid hserved hvalid]
          exact State.endOperation_replied hspace _ _ _
        · rw [Option.map_some, State.recallResult_invalid hserved hvalid]
          rfl
  · refine ⟨_, exec_readComplete hservice hreads, State.completeRead_reads _ _ _, by simp [State.completeRead, State.deliverRead], ?_⟩
    intro p hp
    cases p
    case lc | pt | ps | cr => exact absurd (by decide) hp
    all_goals simp [State.same, State.completeRead, State.deliverRead]
  · have hopen : (s.heard 2 k).OpenTo p z := (State.OpenTo.mk hfitted hrequester hheld hawake).heard 2 k
    have hexec : exec (.presetRecall k p) s = .next ((s.heard 2 k).startRecall ⟨k, z⟩ number).closePosition := by
      refine congrArg Host.Outcome.next ((State.onRequest_heard htakes haddressed _ _ _).trans (congrArg State.closePosition ?_))
      exact hopen.tunerRequest k .presetRecall hpreset _
    obtain ⟨hstate, hband, hfreq⟩ := (s.heard 2 k).startRecall_tb ⟨k, z⟩ number
    refine ⟨_, hexec, hstate, hband, hfreq, fun hspace => (s.heard 2 k).startRecall_enters hspace ⟨k, z⟩ number, fun hfull hnone => ?_,
      s.startRecall_changes k _ number⟩
    obtain ⟨hop, hreads, hreplied⟩ := State.startRecall_full (s := s.heard 2 k) hfull hnone (State.heard_hasRoom hroom 2 k) ⟨k, z⟩ number
    exact ⟨hop, hreads, State.closePosition_replied hreplied⟩

/-- Settles O51: the entry of a read, its service, and its completion. -/
theorem readsAreServed : Obligations.ReadsAreServed := by
  intro s
  refine ⟨fun k p htakes haddressed hroom => ?_, fun step hsuspended hreads => ?_, fun number requester rest hservice hreads hroom => ?_⟩
  · have hrefused : ∀ {outcome}, (s.heard 2 k).onPresetRead k p = (s.heard 2 k).refuse k p .presetRead outcome →
        ∃ t, exec (.presetRead k p) s = .next t ∧ (t.refused k p .presetRead outcome ∧ t.ps = s.ps)
          ∧ ChangesOnly [.lc, .pt, .ps, .cr, .draws] s t := fun {outcome} hact => by
      obtain ⟨hreply, hkeeps⟩ := State.onRequest_refused (act := fun x => x.onPresetRead k p) htakes haddressed hroom hact
      refine ⟨_, rfl, ⟨hreply, ?_⟩, hkeeps.mono (by simp)⟩
      exact hkeeps .ps (by decide)
    cases hzone : requesterZone p with
    | none => exact hrefused (State.onPresetRead_badValue (.inl hzone) k)
    | some z =>
      cases hpreset : presetAt p with
      | none => exact hrefused (State.onPresetRead_badValue (.inr hpreset) k)
      | some number =>
        dsimp only
        by_cases hspace : s.ps.reads.length < 16
        · have hexec : exec (.presetRead k p) s = .next ((s.heard 2 k).enterRead ⟨number, .presetRead ⟨k, z⟩⟩).closePosition := by
            refine congrArg Host.Outcome.next ((State.onRequest_heard htakes haddressed _ _ _).trans (congrArg State.closePosition ?_))
            exact State.onPresetRead_enters (s := s.heard 2 k) hzone hpreset hspace k
          simp only [if_pos hspace]
          exact ⟨_, hexec, (s.heard 2 k).enterRead_store _, s.enterRead_changes k _⟩
        · simp only [if_neg hspace]
          exact hrefused (State.onPresetRead_busy (s := s.heard 2 k) hzone hpreset hspace k)
  · refine congrArg Host.Outcome.next ?_
    have hservice : (s.ps.reads != []) = true := by simpa using hreads
    rw [hsuspended, hservice]
    rfl
  · refine ⟨_, exec_readComplete hservice hreads, ?_, fun step hsuspended => State.completeRead_suspended hsuspended _ _ _,
      s.completeRead_presetRead_changes _ _ _⟩
    have hdelivered : (s.setStore (s.ps.afterRead rest)).deliverRead ⟨number, .presetRead requester⟩ =
        (s.setStore (s.ps.afterRead rest)).answerRead number requester := rfl
    have hresult : (s.setStore (s.ps.afterRead rest)).ps.readResult number = (s.ps.index[number]).map (slotAt s.ps.sectors) := rfl
    cases hindex : s.ps.index[number] with
    | none =>
      refine State.completeRead_queued rfl rfl ?_
      rw [hdelivered]
      simp only [State.answerRead, hresult, hindex, Option.map_none]
      exact State.offerReply_room hroom _ _ _ _
    | some ref =>
      refine State.completeRead_queued rfl rfl ?_
      rw [hdelivered]
      simp only [State.answerRead, hresult, hindex, Option.map_some]
      exact State.offer_queued (by simpa [State.hasRoom] using hroom) rfl rfl

end Sys2Proof.Proofs
end

section
/-! Proofs about the record steps and the compaction of the preset store (R166 to R171). -/

namespace Sys2Proof.Machine

/-! ## Slots (R163) -/

theorem slotAt_writeSlot (sectors : Vector Sector 2) (r : SlotRef) (x : RecordSlot) : slotAt (writeSlot sectors r x) r = x := by
  simp [slotAt, writeSlot]

theorem RecordSlot.slotState_live {r : RecordSlot} (h : r.state = stateByteLive) : r.slotState = .live := by
  rw [RecordSlot.slotState, h]
  decide

theorem nextGeneration_eq (g : BitVec 32) : nextGeneration g = if g = 4294967295 then 1 else g + 1 := by
  simp only [nextGeneration]
  split <;> split <;> simp_all

/-- A change of the store that offers nothing, followed by the engine. -/
theorem State.storeStep_changes (s : State) (ps : PresetStore) : ChangesOnly [.ps, .lc, .cr, .pt] s (s.setStore ps).engineBegin.closeEvent := by
  intro p hp
  cases p
  case ps | lc | cr | pt => exact absurd (by decide) hp
  all_goals simp [State.same]

/-! ## PROGRAMMING and SUPERSEDING (R169, R170) -/

theorem exec_programmingCommit {s : State} {p : Programming} (hengine : s.ps.engine = .running .programming) (hcurrent : s.ps.current = some p) :
    exec .programmingCommit s = .next (s.commit p).closeEvent := by
  refine congrArg Host.Outcome.next ?_
  rw [hengine, hcurrent]

theorem exec_supersedingEnd {s : State} {p : Programming} {old : SlotRef} (hengine : s.ps.engine = .running .superseding)
    (hcurrent : s.ps.current = some p) (hprevious : p.previous = some old) : exec .supersedingEnd s = .next (s.supersede old).closeEvent := by
  refine congrArg Host.Outcome.next ?_
  rw [hengine, hcurrent, Option.bind_some, hprevious]

/-- The store that a commit leaves, before a step that follows (R169). -/
def PresetStore.committed (ps : PresetStore) (p : Programming) : PresetStore :=
  { ps with
    sectors := writeSlot ps.sectors p.slot p.record
    index := ps.index.set p.entry.number (if p.record.isCleared = true then none else some p.slot) }

theorem State.commit_some {s : State} {p : Programming} {old : SlotRef} (h : p.previous = some old) :
    s.commit p = (s.offerReply p.entry.requester p.entry.kind .done).setStore ((s.ps.committed p).enterStep .superseding) := by
  simp only [State.commit, h]
  rfl

theorem State.commit_none {s : State} {p : Programming} (h : p.previous = none) :
    s.commit p =
      ((s.offerReply p.entry.requester p.entry.kind .done).setStore { s.ps.committed p with current := none }.toIdle).engineBegin := by
  simp only [State.commit, h]
  rfl

theorem State.commit_replied {s : State} (h : s.hasRoom = true) (p : Programming) :
    (s.commit p).replied p.entry.requester p.entry.kind .done none := by
  have hreplied := State.offerReply_room h p.entry.requester p.entry.kind .done none
  cases hprevious : p.previous with
  | none =>
    rw [State.commit_none hprevious]
    exact State.engineBegin_queued rfl rfl hreplied
  | some old =>
    rw [State.commit_some hprevious]
    exact hreplied

theorem State.commit_changes (s : State) (p : Programming) : ChangesOnly [.ps, .lc, .cr, .pt] s (s.commit p).closeEvent := by
  intro q hq
  cases q
  case ps | lc | cr | pt => exact absurd (by decide) hq
  all_goals simp [State.same]

/-- Where nothing waits, the engine is IDLE after the last step of a record. -/
theorem State.commit_store {s : State} {p : Programming} (h : p.previous.isSome = true ∨ s.ps.queue = [] ∧ s.ps.compaction = none) :
    (s.commit p).ps.sectors = writeSlot s.ps.sectors p.slot p.record
      ∧ (s.commit p).ps.index = s.ps.index.set p.entry.number (if p.record.isCleared = true then none else some p.slot)
      ∧ (s.commit p).ps.engine = (if p.previous.isSome = true then .running .superseding else .idle) := by
  cases hprevious : p.previous with
  | some old =>
    rw [State.commit_some hprevious]
    exact ⟨rfl, rfl, rfl⟩
  | none =>
    rw [hprevious] at h
    obtain ⟨hqueue, hcompaction⟩ := h.resolve_left (by simp)
    rw [State.commit_none hprevious, State.engineBegin_empty (by exact hqueue) (by exact hcompaction)]
    exact ⟨rfl, rfl, rfl⟩

/-! ## The compaction (R171) -/

theorem exec_erasingEnd {s : State} {c : Compaction} (hengine : s.ps.engine = .running .erasing) (hcompaction : s.ps.compaction = some c) :
    exec .erasingEnd s = .next (s.endErase c).closeEvent := by
  refine congrArg Host.Outcome.next ?_
  rw [hengine, hcompaction]

theorem exec_copyingEnd {s : State} {c : Compaction} (hengine : s.ps.engine = .running .copying) (hcompaction : s.ps.compaction = some c) :
    exec .copyingEnd s = .next (s.endCopy c).closeEvent := by
  refine congrArg Host.Outcome.next ?_
  rw [hengine, hcompaction]

theorem exec_headerEnd {s : State} {c : Compaction} (hengine : s.ps.engine = .running .header) (hcompaction : s.ps.compaction = some c) :
    exec .headerEnd s = .next (s.endHeader c).closeEvent := by
  refine congrArg Host.Outcome.next ?_
  rw [hengine, hcompaction]

theorem State.engineMayBegin_true {s : State} (hreset : s.inReset = false) (hrecovered : s.ps.recoveryEnded = true) (hidle : s.ps.engine = .idle)
    (hreads : s.ps.reads = []) (hnormal : s.sm = .normal) : s.engineMayBegin = true := by
  simp [State.engineMayBegin, hreset, hrecovered, hidle, hreads, hnormal]

/-- A LOW supply begins no step (R168, R174). -/
theorem State.engineBegin_low {s : State} (h : s.sm = .low) : s.engineBegin = s :=
  State.engineBegin_stands (State.engineMayBegin_false (.inr (.inr (by rw [h]; decide))))

/-- The engine goes on with a compaction (R171). -/
theorem State.engineBegin_compaction {s : State} {c : Compaction} (h : s.ps.compaction = some c) :
    s.engineBegin.ps.compaction = some c ∧ s.engineBegin.ps.index = s.ps.index
      ∧ (s.engineMayBegin = true → s.engineBegin.ps.engine = .running c.next) := by
  rw [State.engineBegin, h]
  split
  next hmay => exact ⟨rfl, rfl, fun _ => rfl⟩
  next hnot => exact ⟨h, rfl, fun hmay => absurd hmay hnot⟩

/-- The store at the end of ERASING: the spare erased and the copy list taken. -/
def PresetStore.spareErased (ps : PresetStore) (c : Compaction) : PresetStore :=
  { ps with
    sectors := ps.sectors.set c.spare Sector.erased
    compaction := some ({ c with copyList := ps.index.toList.filterMap id }.after 0) }.toIdle

theorem State.endErase_eq (s : State) (c : Compaction) : s.endErase c = (s.setStore (s.ps.spareErased c)).engineBegin := rfl

/-- The store at the end of COPYING of one record. -/
def PresetStore.recordCopied (ps : PresetStore) (c : Compaction) (source : SlotRef) : PresetStore :=
  { ps with
    sectors := writeSlot ps.sectors c.copyTarget { slotAt ps.sectors source with state := stateByteLive }
    compaction := some (c.after (c.copied + 1)) }.toIdle

theorem State.endCopy_eq {s : State} {c : Compaction} {source : SlotRef} (h : c.copyList[c.copied]? = some source) :
    s.endCopy c = (s.setStore (s.ps.recordCopied c source)).engineBegin := by
  simp only [State.endCopy, h]
  rfl

/-- The generation that the header of a compaction takes (R171). -/
def PresetStore.nextHeader (ps : PresetStore) : BitVec 32 :=
  match activeSector ps.sectors with
  | some a => nextGeneration (ps.sectors[a]).generation
  | none => 1

/-- The store at the end of HEADER. -/
def PresetStore.headerWritten (ps : PresetStore) (c : Compaction) : PresetStore :=
  { ps with
    sectors := ps.sectors.set c.spare { ps.sectors[c.spare] with generation := ps.nextHeader, mark := headerMark }
    index := ps.index.map (Option.map c.copyOf)
    compaction := none }.toIdle

theorem State.endHeader_eq (s : State) (c : Compaction) : s.endHeader c = (s.setStore (s.ps.headerWritten c)).engineBegin := rfl

end Sys2Proof.Machine

namespace Sys2Proof.Proofs

open Sys2Proof.Machine

/-- Settles O52: the commit, with the step that may follow it, and the end of SUPERSEDING. -/
theorem recordsAreProgrammed : Obligations.RecordsAreProgrammed := by
  intro p s hcurrent hroom
  refine ⟨fun hengine => ?_, fun old hengine hprevious hqueue hcompaction => ?_⟩
  · refine ⟨_, exec_programmingCommit hengine hcurrent, State.closeEvent_queued rfl rfl (State.commit_replied hroom p), fun hfollows => ?_,
      s.commit_changes p⟩
    obtain ⟨hsectors, hindex, hidle⟩ := State.commit_store hfollows
    simp only [State.closeEvent_frame]
    refine ⟨hsectors, fun hlive => ?_, hindex, hidle⟩
    rw [hsectors, slotAt_writeSlot]
    exact RecordSlot.slotState_live hlive
  · refine ⟨_, exec_supersedingEnd hengine hcurrent hprevious, ?_⟩
    have hstep : s.supersede old = s.setStore { s.ps with
        sectors := writeSlot s.ps.sectors old { slotAt s.ps.sectors old with state := stateByteSuperseded }
        current := none }.toIdle := State.engineBegin_empty (by exact hqueue) (by exact hcompaction)
    refine ⟨?_, ?_, ?_, s.storeStep_changes _⟩
    all_goals rw [hstep]; rfl

/-- Settles O53, by the step of the compaction that ends. -/
theorem compactionSteps : Obligations.CompactionSteps := by
  intro c s hcompaction
  refine ⟨fun hengine => ?_, fun source hengine hlow hsource => ?_, fun hengine hlow => ?_⟩
  · obtain ⟨hkept, hindex, hbegins⟩ := State.engineBegin_compaction (s := s.setStore (s.ps.spareErased c)) rfl
    refine ⟨_, _, exec_erasingEnd hengine hcompaction, hkept, ?_, fun hlow => ?_, fun hreset hnormal hrecovered hreads => hbegins ?_, hindex,
      s.storeStep_changes _⟩
    · cases s.ps.index.toList.filterMap id <;> rfl
    · rw [State.endErase_eq, State.engineBegin_low (by exact hlow)]
      exact ⟨rfl, rfl⟩
    · exact State.engineMayBegin_true hreset hrecovered rfl hreads hnormal
  · refine ⟨_, exec_copyingEnd hengine hcompaction, ?_⟩
    rw [State.endCopy_eq hsource]
    refine ⟨?_, ?_, ?_, ?_, s.storeStep_changes _⟩
    all_goals rw [State.engineBegin_low (by exact hlow)]; rfl
  · refine ⟨_, exec_headerEnd hengine hcompaction, ?_⟩
    rw [State.endHeader_eq]
    refine ⟨?_, fun n => ?_, ?_, ?_, s.storeStep_changes _⟩
    all_goals rw [State.engineBegin_low (by exact hlow)]
    · refine congrArg (s.ps.sectors.set c.spare) ?_
      unfold PresetStore.nextHeader
      cases activeSector s.ps.sectors with
      | none => rfl
      | some a => simp [nextGeneration_eq, headerMark]
    · simp [State.setStore, PresetStore.headerWritten, PresetStore.toIdle]
    · rfl
    · rfl

end Sys2Proof.Proofs
end

section
/-! Proofs about accepted requests of the preset store (R166, R168, R169). -/

namespace Sys2Proof.Machine

/-! ## Acceptance (R166) -/

theorem State.storeTest_passes {s : State} {e : StoreEntry} (hfixed : s.cl.values.fixedCount < e.number.val + 1)
    (htuner : e.kind = .presetStore → s.cl.values.tunerFitted = true ∧ s.tb.state = .listening ∧ s.tb.op = none)
    (hspace : s.ps.queue.length < 4) : s.storeTest e = none := by
  have hfree : ¬e.number.val + 1 ≤ s.cl.values.fixedCount := not_le.mpr hfixed
  have hroom : ¬4 ≤ s.ps.queue.length := not_le.mpr hspace
  simp only [State.storeTest, hfree, hroom, if_false]
  by_cases hstore : e.kind = .presetStore
  · obtain ⟨hfitted, hlistening, hop⟩ := htuner hstore
    simp [hfitted, hlistening, hop]
  · simp [hstore]

theorem State.onStoreEntry_accepts {s : State} {e : StoreEntry} (h : s.storeTest e = none) (k : Station) (p : List Byte) (kind : RequestKind) :
    s.onStoreEntry k p kind (some e) = s.acceptEntry e := by
  simp only [State.onStoreEntry, h]

/-- The state of an accepted entry before the engine. -/
def State.entered (s : State) (e : StoreEntry) : State :=
  (s.setStore { s.ps with queue := s.ps.queue ++ [e] }).offerReply e.requester e.kind .accepted

theorem State.acceptEntry_eq (s : State) (e : StoreEntry) : s.acceptEntry e = (s.entered e).engineBegin := rfl

theorem State.acceptEntry_replied {s : State} (h : s.hasRoom = true) (e : StoreEntry) :
    (s.acceptEntry e).closePosition.replied e.requester e.kind .accepted none := by
  have hoffered := State.offerReply_room (s := s.setStore { s.ps with queue := s.ps.queue ++ [e] }) h e.requester e.kind .accepted none
  exact State.closePosition_replied (State.engineBegin_queued rfl rfl hoffered)

theorem State.acceptEntry_changes (s : State) (k : Station) (e : StoreEntry) :
    ChangesOnly [.lc, .pt, .ps, .cr] s ((s.heard 2 k).acceptEntry e).closePosition := by
  intro p hp
  cases p
  case lc | pt | ps | cr => exact absurd (by decide) hp
  all_goals simp [State.same]

/-- An engine that may not begin leaves the entry in the queue. -/
theorem State.acceptEntry_waits {s : State} (h : s.engineMayBegin = false) (e : StoreEntry) :
    (s.acceptEntry e).closePosition.ps = { s.ps with queue := s.ps.queue ++ [e] } := by
  have hentered : (s.entered e).engineMayBegin = false := h
  rw [State.acceptEntry_eq, State.engineBegin_stands hentered]
  rfl

/-- An engine that may begin takes the entry from an empty queue. -/
theorem State.acceptEntry_taken {s : State} (h : s.engineMayBegin = true) (hcompaction : s.ps.compaction = none) (hqueue : s.ps.queue = [])
    (e : StoreEntry) : s.acceptEntry e = (s.entered e).takeEntries [e] := by
  have hentered : (s.entered e).engineMayBegin = true := h
  have hkept : (s.entered e).ps.compaction = none := hcompaction
  have htail : (s.entered e).ps.queue = [e] := by
    have happended : (s.entered e).ps.queue = s.ps.queue ++ [e] := rfl
    rw [happended, hqueue, List.nil_append]
  rw [State.acceptEntry_eq, State.engineBegin, if_pos hentered, hkept, htail]

/-! ## The start of a record (R168, R169) -/

/-- The note of a record at the start of its programming. -/
def PresetStore.noted (ps : PresetStore) (e : StoreEntry) (slot : SlotRef) : Programming :=
  { entry := e, slot := slot, record := e.record ps.nextSequence ((ps.index[e.number]).map (slotAt ps.sectors)), previous := ps.index[e.number] }

/-- An entry that calls for a record: every STORE, and a CLEAR of a record that the index names. -/
def PresetStore.callsForRecord (ps : PresetStore) (e : StoreEntry) : Prop := e.kind = .presetStore ∨ ps.index[e.number] ≠ none

theorem State.takeEntries_append {s : State} {e : StoreEntry} (h : s.ps.callsForRecord e) {slot : SlotRef} (happend : s.ps.appendRef = some slot) :
    s.takeEntries [e] = s.setStore ({ s.ps with queue := [] }.program e slot) := by
  unfold State.takeEntries
  split
  next hindex =>
    rcases h with hkind | hnamed
    · cases hkind
    · exact absurd hindex hnamed
  next => rw [happend]

/-- In a full sector a compaction begins (R168). -/
theorem State.takeEntries_full {s : State} {e : StoreEntry} (h : s.ps.callsForRecord e) (happend : s.ps.appendRef = none) :
    s.takeEntries [e] = s.setStore ({ s.ps with queue := [e] }.continueCompaction (newCompaction (activeSector s.ps.sectors))) := by
  unfold State.takeEntries
  split
  next hindex =>
    rcases h with hkind | hnamed
    · cases hkind
    · exact absurd hindex hnamed
  next => rw [happend]

theorem State.takeEntries_programs {s y : State} {e : StoreEntry} (hps : y.ps = { s.ps with queue := [e] }) (h : s.ps.callsForRecord e) :
    s.programs (y.takeEntries [e]) e (s.ps.appendRef.map (s.ps.noted e)) := by
  have hcalls : y.ps.callsForRecord e := by rw [hps]; exact h
  have happend : y.ps.appendRef = s.ps.appendRef := by rw [hps]; rfl
  cases hslot : s.ps.appendRef with
  | none =>
    rw [State.takeEntries_full hcalls (happend.trans hslot), hps]
    exact ⟨rfl, rfl, rfl, rfl, ⟨_, rfl, rfl⟩, rfl⟩
  | some slot =>
    rw [State.takeEntries_append hcalls (happend.trans hslot), hps]
    exact ⟨rfl, rfl, rfl, rfl, rfl, rfl⟩

theorem State.programs.closePosition {s t : State} {e : StoreEntry} {p : Option Programming} (h : s.programs t e p) :
    s.programs t.closePosition e p := by
  unfold State.programs at h ⊢
  exact h

theorem State.programs.of_heard {s t : State} {cls : BitVec 3} {k : Station} {e : StoreEntry} {p : Option Programming}
    (h : (s.heard cls k).programs t e p) : s.programs t e p := by
  unfold State.programs at h ⊢
  exact h

/-- An accepted entry that calls for a record, at an engine that may begin. -/
theorem State.acceptEntry_programs {s : State} (h : s.engineMayBegin = true) (hcompaction : s.ps.compaction = none) (hqueue : s.ps.queue = [])
    {e : StoreEntry} (hrecord : s.ps.callsForRecord e) :
    s.programs (s.acceptEntry e).closePosition e (s.ps.appendRef.map (s.ps.noted e)) := by
  have hps : (s.entered e).ps = { s.ps with queue := [e] } := by
    have happended : (s.entered e).ps = { s.ps with queue := s.ps.queue ++ [e] } := rfl
    rw [happended, hqueue, List.nil_append]
  rw [State.acceptEntry_taken h hcompaction hqueue]
  exact (State.takeEntries_programs hps hrecord).closePosition

/-! ## A CLEAR that names no record (R168) -/

theorem LinkController.endPosition_length_le (lc : LinkController) (own : Station) (f : ArbField) (taken void : Bool) :
    (lc.endPosition own f taken void).queue.length ≤ lc.queue.length := by
  simp only [LinkController.endPosition]
  split
  next hown =>
    obtain ⟨m, hm⟩ := LinkController.isOwnPosition_flight hown
    split
    · obtain ⟨x, hx, hflight, -⟩ := LinkController.inFlight_some hm
      have hshorter : (lc.queue.filter fun e => !e.inFlight).length < lc.queue.length :=
        List.length_filter_lt_length_iff_exists.mpr ⟨x, hx, by simp [hflight]⟩
      simp only [LinkController.removeTaken_queue lc hm]
      split
      · rw [enterQueue_length]
        omega
      · omega
    · simp
  next => simp

theorem State.heard_length_le (s : State) (cls : BitVec 3) (k : Station) : (s.heard cls k).lc.queue.length ≤ s.lc.queue.length := by
  have hmark : s.endMark.lc.queue.length = s.lc.queue.length := LinkController.endMark_length _
  rw [← hmark]
  exact LinkController.endPosition_length_le _ _ _ _ _

theorem State.offerReply_length {s : State} (h : s.lc.queue.length < 8) (r : Requester) (k : RequestKind) (o : ReplyOutcome) :
    (s.offerReply r k o).lc.queue.length = s.lc.queue.length + 1 := by
  have hnew : s.lc.queue.any (fun e => coalesces e.msg (.reply { requester := r, kind := k, outcome := o, value := none })) = false := by
    simp only [List.any_eq_false]
    intro e _
    rw [coalesces_false rfl rfl]
    simp
  simp only [State.offerReply, State.offer]
  rw [LinkController.offer_enters _ _ h hnew, enterQueue_length]

theorem State.takeEntries_answered {s : State} {number : Fin 30} (hindex : s.ps.index[number] = none) (r : Requester) :
    s.takeEntries [.clear number r] = (s.offerReply r .presetClear .done).setStore { s.ps with queue := [] } := by
  unfold State.takeEntries
  split
  next heq _ =>
    cases heq
    rfl
  next hother => exact (hother number r rfl hindex).elim

theorem State.acceptEntry_answered {s : State} (h : s.engineMayBegin = true) (hcompaction : s.ps.compaction = none) (hqueue : s.ps.queue = [])
    {number : Fin 30} {r : Requester} (hindex : s.ps.index[number] = none) :
    (s.acceptEntry (.clear number r)).closePosition.ps = s.ps
      ∧ (s.lc.queue.length < 7 → (s.acceptEntry (.clear number r)).closePosition.replied r .presetClear .done none) := by
  rw [State.acceptEntry_taken h hcompaction hqueue, State.takeEntries_answered (by exact hindex)]
  refine ⟨?_, fun hroom => State.closePosition_replied ?_⟩
  · have hemptied : { s.ps with queue := [] } = s.ps := by rw [← hqueue]
    exact hemptied
  · have hlength := State.offerReply_length (s := s.setStore { s.ps with queue := s.ps.queue ++ [.clear number r] }) (by exact Nat.lt_succ_of_lt hroom) r
      .presetClear .accepted
    have hentered : (s.entered (.clear number r)).hasRoom = true := by
      refine decide_eq_true (lt_of_eq_of_lt hlength ?_)
      exact Nat.succ_lt_succ hroom
    exact State.offerReply_room hentered r .presetClear .done none

theorem nameBytes_nil : nameBytes [] = Vector.replicate 8 0xFF := by decide

/-- The record of a CLEAR carries the band and frequency of the record cleared (R169). -/
theorem PresetStore.noted_clear {ps : PresetStore} {number : Fin 30} {old : SlotRef} (hindex : ps.index[number] = some old) (r : Requester)
    (slot : SlotRef) :
    ps.noted (.clear number r) slot =
      { entry := .clear number r, slot := slot, previous := some old
        record :=
          { state := stateByteLive, number := BitVec.ofNat 8 (number.val + 1), sequence := ps.nextSequence,
            band := bandByte (slotAt ps.sectors old).readBand, freq := (slotAt ps.sectors old).freq, cleared := 0x00,
            nameLength := 0, name := Vector.replicate 8 0xFF } } := by
  simp only [PresetStore.noted, StoreEntry.number, hindex, Option.map_some, StoreEntry.record, Option.getD_some, nameBytes_nil]

end Sys2Proof.Machine

namespace Sys2Proof.Proofs

open Sys2Proof.Machine

/-- Settles O49: the tests pass, the entry is accepted, and an engine that may begin takes it. -/
theorem storeRequestsAreAccepted : Obligations.StoreRequestsAreAccepted := by
  intro k p z number s htakes haddressed hroom hzone hpreset hfixed hspace
  have hheardRoom := State.heard_hasRoom hroom 2 k
  refine ⟨fun name hname hfitted hlistening hop => ?_, ?_⟩
  · have hexec : exec (.presetStore k p) s =
        .next ((s.heard 2 k).acceptEntry (.store number s.tb.band s.tb.freq name ⟨k, z⟩)).closePosition := by
      refine congrArg Host.Outcome.next ((State.onRequest_heard htakes haddressed _ _ _).trans (congrArg State.closePosition ?_))
      have hentry : (s.heard 2 k).storeEntry k p = some (.store number s.tb.band s.tb.freq name ⟨k, z⟩) := by
        simp [State.storeEntry, hzone, hpreset, hname]
      rw [hentry]
      have hpasses : (s.heard 2 k).storeTest (.store number s.tb.band s.tb.freq name ⟨k, z⟩) = none :=
        State.storeTest_passes hfixed (fun _ => ⟨hfitted, hlistening, hop⟩) hspace
      exact State.onStoreEntry_accepts hpasses _ _ _
    refine ⟨_, _, hexec, rfl, State.acceptEntry_replied hheardRoom _, fun hbusy => State.acceptEntry_waits (s := s.heard 2 k) hbusy _,
      fun hmay hcompaction hqueue => ?_, s.acceptEntry_changes k _⟩
    have hprograms := State.programs.of_heard <| State.acceptEntry_programs (s := s.heard 2 k) hmay hcompaction hqueue
      (e := .store number s.tb.band s.tb.freq name ⟨k, z⟩) (.inl rfl)
    have happend : (s.heard 2 k).ps.appendRef = s.ps.appendRef := rfl
    rw [happend] at hprograms
    cases hslot : s.ps.appendRef with
    | none =>
      rw [hslot] at hprograms
      exact hprograms
    | some slot =>
      rw [hslot] at hprograms
      exact hprograms
  · have hexec : exec (.presetClear k p) s = .next ((s.heard 2 k).acceptEntry (.clear number ⟨k, z⟩)).closePosition := by
      refine congrArg Host.Outcome.next ((State.onRequest_heard htakes haddressed _ _ _).trans (congrArg State.closePosition ?_))
      have hentry : clearEntry k p = some (.clear number ⟨k, z⟩) := by
        simp [clearEntry, hzone, hpreset]
      rw [hentry]
      have hpasses : (s.heard 2 k).storeTest (.clear number ⟨k, z⟩) = none :=
        State.storeTest_passes hfixed (fun hkind => RequestKind.noConfusion hkind) hspace
      exact State.onStoreEntry_accepts hpasses _ _ _
    refine ⟨_, _, hexec, rfl, State.acceptEntry_replied hheardRoom _, fun hbusy => State.acceptEntry_waits (s := s.heard 2 k) hbusy _,
      fun hmay hcompaction hqueue => ?_, s.acceptEntry_changes k _⟩
    cases hindex : s.ps.index[number] with
    | none =>
      obtain ⟨hstands, hdone⟩ := State.acceptEntry_answered (s := s.heard 2 k) hmay hcompaction hqueue (r := ⟨k, z⟩) hindex
      exact ⟨hstands, fun hlength => hdone (lt_of_le_of_lt (s.heard_length_le 2 k) hlength)⟩
    | some old =>
      have hprograms := State.programs.of_heard <| State.acceptEntry_programs (s := s.heard 2 k) hmay hcompaction hqueue
        (e := .clear number ⟨k, z⟩) (.inr (by simp [StoreEntry.number, hindex]))
      have happend : (s.heard 2 k).ps.appendRef = s.ps.appendRef := rfl
      rw [happend] at hprograms
      cases hslot : s.ps.appendRef with
      | none =>
        rw [hslot] at hprograms
        exact hprograms
      | some slot =>
        rw [hslot, Option.map_some, PresetStore.noted_clear (ps := (s.heard 2 k).ps) hindex] at hprograms
        exact hprograms

end Sys2Proof.Proofs
end

section
/-! Proofs about the mix matrix and the outputs at a round begin (R121, R132, R134, R136): which steps swap, rebuild, slew and count. -/

namespace Sys2Proof.Machine

/-! ## Rebuilds (R120, R121) -/

/-- From one matrix to another nothing was swapped: the active one and the swap made ahead stand, and a rebuild that waits still waits. -/
structure MixMatrix.Waits (a b : MixMatrix) : Prop where
  active : b.active = a.active
  swapped : b.swapped = a.swapped
  dirty : a.dirty = true → b.dirty = true

/-- From one state to another the matrix was at most rebuilt. -/
def State.MatrixWaits (s t : State) : Prop := s.mm.Waits t.mm

theorem State.MatrixWaits.refl (s : State) : s.MatrixWaits s := ⟨rfl, rfl, id⟩

theorem State.MatrixWaits.trans {s t u : State} (h : s.MatrixWaits t) (k : t.MatrixWaits u) : s.MatrixWaits u :=
  ⟨k.active.trans h.active, k.swapped.trans h.swapped, fun hd => k.dirty (h.dirty hd)⟩

theorem State.MatrixWaits.of_mm {s t : State} (h : t.mm = s.mm) : s.MatrixWaits t := by
  rw [State.MatrixWaits, h]
  exact ⟨rfl, rfl, id⟩

theorem State.MatrixWaits.after {s t u : State} (k : t.MatrixWaits u) (h : t.mm = s.mm) : s.MatrixWaits u := (State.MatrixWaits.of_mm h).trans k

theorem State.MatrixWaits.before {s t u : State} (h : s.MatrixWaits t) (k : u.mm = t.mm) : s.MatrixWaits u := h.trans (.of_mm k)

theorem State.rebuild_matrixWaits (s : State) : s.MatrixWaits s.rebuild := ⟨rfl, rfl, fun _ => rfl⟩

theorem State.rebuildIf_matrixWaits (s : State) (b : Bool) : s.MatrixWaits (s.rebuildIf b) := by
  cases b with
  | true => exact s.rebuild_matrixWaits
  | false => exact .refl s

theorem State.checkDecoder_matrixWaits (s : State) : s.MatrixWaits s.checkDecoder := by
  refine State.MatrixWaits.trans ?_ (State.rebuildIf_matrixWaits _ _)
  exact .of_mm rfl

theorem State.decode_matrixWaits (s : State) (h : Handed) : s.MatrixWaits (s.decode h) := by
  refine State.MatrixWaits.trans ?_ (State.rebuildIf_matrixWaits _ _)
  exact ⟨rfl, rfl, id⟩

theorem State.switchTo_matrixWaits (s : State) (p : Option Stream) : s.MatrixWaits (s.switchTo p) := by
  refine State.MatrixWaits.trans ?_ (State.rebuild_matrixWaits _)
  exact (State.checkDecoder_matrixWaits _).after rfl

theorem State.switchIfDown_matrixWaits (s : State) : s.MatrixWaits s.switchIfDown := by
  simp only [State.switchIfDown]
  (repeat' split)
  · exact .refl s
  · exact s.switchTo_matrixWaits _
  · exact .refl s

/-! ## The presentation (R69 to R71) -/

theorem State.silentFrame_matrixWaits (s : State) : s.MatrixWaits s.silentFrame := ⟨rfl, rfl, id⟩

theorem State.playPairs_matrixWaits (s : State) (pairs : List (Sample × Sample)) : s.MatrixWaits (s.playPairs pairs) := ⟨rfl, rfl, id⟩

theorem State.takeKind_matrixWaits (s : State) (kind : Option Kind) : s.MatrixWaits (s.takeKind kind) := by
  simp only [State.takeKind]
  split
  · exact .refl s
  · refine State.MatrixWaits.trans ?_ (State.rebuild_matrixWaits _)
    exact (State.checkDecoder_matrixWaits _).after rfl

theorem State.presentReceived_matrixWaits (s : State) (e : RingEntry) : s.MatrixWaits (s.presentReceived e) := by
  have hkind : s.MatrixWaits ({ s with sr := { s.sr with watchdog := 0 } }.takeKind e.kind) :=
    (State.takeKind_matrixWaits _ _).after rfl
  refine hkind.trans ?_
  simp only [State.presentReceived]
  split
  · exact State.decode_matrixWaits _ _
  · exact State.decode_matrixWaits _ _
  · exact State.playPairs_matrixWaits _ _
  · exact State.playPairs_matrixWaits _ _
  · exact State.silentFrame_matrixWaits _

theorem State.presentMissing_matrixWaits (s : State) : s.MatrixWaits s.presentMissing := by
  simp only [State.presentMissing]
  split
  · exact State.playPairs_matrixWaits _ _
  · exact State.decode_matrixWaits _ _
  · exact State.silentFrame_matrixWaits _

theorem State.fireWatchdog_matrixWaits (s : State) : s.MatrixWaits s.fireWatchdog := by
  have hsilent : s.MatrixWaits (({ s with sr := { s.sr with state := .lost, watchdog := 0 } }.setCondition .programLost true).silentFrame) :=
    ⟨rfl, rfl, id⟩
  simp only [State.fireWatchdog]
  split
  · exact hsilent.before (by simp)
  · exact hsilent

theorem State.presentRunning_matrixWaits (s : State) (e : RingEntry) : s.MatrixWaits (s.presentRunning e) := by
  simp only [State.presentRunning, State.countMissing]
  (repeat' split)
  · exact s.presentReceived_matrixWaits e
  · exact s.presentMissing_matrixWaits.trans (State.fireWatchdog_matrixWaits _)
  · exact s.presentMissing_matrixWaits.before rfl

theorem State.presentFilling_matrixWaits (s : State) (round : RoundNo) (e : RingEntry) : s.MatrixWaits (s.presentFilling round e) := by
  have hsilent : s.MatrixWaits { s with sr := s.sr.dropLead round }.silentFrame := ⟨rfl, rfl, id⟩
  simp only [State.presentFilling]
  split
  · exact hsilent.trans ((State.presentRunning_matrixWaits _ _).after rfl)
  · exact hsilent

theorem State.present_matrixWaits (s : State) : s.MatrixWaits s.present := by
  simp only [State.present]
  (repeat' split)
  · exact s.silentFrame_matrixWaits
  · exact s.silentFrame_matrixWaits
  · exact s.silentFrame_matrixWaits
  · exact s.presentFilling_matrixWaits _ _
  · exact s.presentRunning_matrixWaits _

theorem State.receiverRound_matrixWaits (s : State) (d : Nat) : s.MatrixWaits (s.receiverRound d) := by
  simp only [State.receiverRound]
  split
  · exact s.present_matrixWaits
  · exact (State.silentFrame_matrixWaits _).after (by simp)

/-! ## Roles, modes and the join window -/

theorem State.deriveRoles_matrixWaits (s : State) : s.MatrixWaits s.deriveRoles := by
  have hrebuilt := State.rebuildIf_matrixWaits { s with zt := { s.zt with holders := s.deriveHolders } }
    (({ s.zt with holders := s.deriveHolders } : ZoneTable).speakerSet != s.zt.speakerSet)
  refine (hrebuilt.before ?_).after rfl
  simp [State.deriveRoles]

theorem State.peerRound_matrixWaits (s : State) : s.MatrixWaits s.peerRound := by
  simp only [State.peerRound]
  split
  · exact (State.deriveRoles_matrixWaits _).after rfl
  · exact .of_mm rfl

theorem State.evalGo_mm (s : State) : s.evalGo.mm = s.mm := rfl

theorem State.stopTuner_mm (s : State) : s.stopTuner.mm = s.mm := by simp

theorem State.enterMode_matrixWaits (s : State) (old : Mode) : s.MatrixWaits (s.enterMode old) := by
  have hawake : (if old == .standby then s.wake else s).mm = s.mm := by split <;> simp
  cases hm : s.pt.mode with
  | joining =>
    simp only [State.enterMode, hm]
    exact .refl s
  | active =>
    simp only [State.enterMode, hm]
    refine ((State.checkDecoder_matrixWaits _).before (State.evalGo_mm _)).after ?_
    simpa [State.eachOutput] using hawake
  | serving =>
    simp only [State.enterMode, hm]
    refine ((State.checkDecoder_matrixWaits _).before (State.evalGo_mm _)).after ?_
    simpa [State.eachOutput] using hawake
  | standby =>
    simp only [State.enterMode, hm]
    refine State.MatrixWaits.trans ?_ ((State.switchIfDown_matrixWaits _).before (State.evalGo_mm _))
    refine State.MatrixWaits.after (State.MatrixWaits.before (State.checkDecoder_matrixWaits _) (State.stopTuner_mm _)) ?_
    simp [State.eachOutput]

theorem State.changeMode_matrixWaits (s : State) (m : Mode) : s.MatrixWaits (s.changeMode m) := by
  simp only [State.changeMode]
  split
  · exact .refl s
  · have hannounced : s.MatrixWaits { s with pt := { s.pt with mode := m } }.announce := .of_mm rfl
    exact hannounced.trans (State.enterMode_matrixWaits _ _)

theorem State.joinRound_matrixWaits (s : State) : s.MatrixWaits s.joinRound := by
  simp only [State.joinRound]
  (repeat' split)
  · have hclosed : s.MatrixWaits s.closeWindow := .of_mm rfl
    exact (hclosed.trans (State.changeMode_matrixWaits _ s.closeWindow.derivedMode)).before (by simp [State.endWindow, State.eachSource])
  · exact .of_mm rfl
  · exact .refl s

/-! ## The swap of a round begin (R121) -/

theorem State.rampRound_matrixWaits (s : State) : s.MatrixWaits s.rampRound :=
  (State.switchIfDown_matrixWaits _).after (by simp)

theorem State.heardRound_matrixWaits (s : State) (r : RoundBegin) : s.swapRound.MatrixWaits (s.heardRound r) := by
  have hramped : s.swapRound.MatrixWaits (if r.rampOrder == .stepFirst then s.swapRound.rampRound else s.swapRound) := by
    split
    · exact State.rampRound_matrixWaits _
    · exact .refl _
  exact (hramped.before (by simp)).trans (State.peerRound_matrixWaits _)

theorem State.afterTuner_matrixWaits (s : State) (r : RoundBegin) : s.MatrixWaits (s.afterTuner r) := by
  have hdown : s.MatrixWaits (s.eachSource State.offerAgain).evalGo.switchIfDown :=
    (State.switchIfDown_matrixWaits _).after (by simp [State.eachSource])
  simp only [State.afterTuner]
  split
  · exact (hdown.trans (State.rampRound_matrixWaits _)).before (by simp)
  · exact hdown.before (by simp)

/-- After the swap a round begin at most rebuilds. -/
theorem State.roundBegin_matrixWaits (s : State) (r : RoundBegin) : s.swapRound.MatrixWaits (s.roundBegin r) := by
  rw [State.roundBegin_parts]
  have hpresented : s.swapRound.MatrixWaits (s.beforeTuner r) :=
    ((s.heardRound_matrixWaits r).trans (State.receiverRound_matrixWaits _ s.rt.adoptedD)).before (by simp [State.beforeTuner])
  have htuned : s.swapRound.MatrixWaits ((s.beforeTuner r).tunerRound r.frontEnd r.demodulated) := hpresented.before (by simp)
  have hjoined := (htuned.trans (State.afterTuner_matrixWaits _ r)).trans (State.joinRound_matrixWaits _)
  exact hjoined.before (by simp)

theorem MixMatrix.swap_active (mm : MixMatrix) :
    mm.swap.active = (if mm.swapped = false ∧ mm.dirty = true then mm.pending else mm.active) ∧ mm.swap.swapped = false
      ∧ (mm.swapped = true → mm.dirty = true → mm.swap.dirty = true) := by
  cases hs : mm.swapped <;> cases hd : mm.dirty <;> simp [MixMatrix.swap, MixMatrix.exchange, hs, hd]

/-- An event of the coming round begin that rebuilds makes its swap first, and another leaves the matrix (R121). -/
theorem State.atRoundBegin_swaps {s : State} {act : State → State} (h : ∀ x, State.MatrixWaits x (act x)) (hfresh : s.mm.swapped = false) :
    ((s.atRoundBegin act).mm.swapped = true →
        (s.atRoundBegin act).mm.dirty = true ∧ (s.atRoundBegin act).mm.active = if s.mm.dirty = true then s.mm.pending else s.mm.active)
      ∧ ((s.atRoundBegin act).mm.swapped = false →
        (s.atRoundBegin act).mm.active = s.mm.active ∧ (s.atRoundBegin act).mm.pending = s.mm.pending
          ∧ (s.atRoundBegin act).mm.dirty = s.mm.dirty) := by
  have hacted := h { s with mm := { s.mm.exchange with swapped := true } }
  simp only [State.atRoundBegin, hfresh, Bool.false_eq_true, if_false]
  split
  next hdirty =>
    refine ⟨fun _ => ⟨hdirty, hacted.active⟩, fun hswapped => ?_⟩
    have himpossible : true = false := hacted.swapped.symm.trans hswapped
    cases himpossible
  next =>
    exact ⟨fun hswapped => (Bool.false_ne_true hswapped).elim, fun _ => ⟨rfl, rfl, rfl⟩⟩

theorem State.withoutPeer_matrixWaits (s : State) (k : Station) : s.MatrixWaits (s.withoutPeer k) := by
  have hderived : s.MatrixWaits { s with pt := { s.pt with entries := s.pt.entries.set k none } }.deriveRoles :=
    (State.deriveRoles_matrixWaits _).after rfl
  exact hderived.before (State.evalGo_mm _)

/-- A fault taken first at a round begin, as its own command. -/
def State.faultsAhead (n : OutputNo) (s : State) : State := ((s.countFault n).holdSteps n).switchIfDown

theorem State.faultsAhead_matrixWaits (n : OutputNo) (s : State) : s.MatrixWaits (s.faultsAhead n) :=
  (State.switchIfDown_matrixWaits _).after (by simp)

theorem State.closeEvent_mm (s : State) : s.closeEvent.mm = s.mm := rfl

theorem exec_outputFault_ahead (s : State) (n : OutputNo) :
    exec (.outputFault n .assertsAheadOfRoundBegin) s =
      .next (if !s.inReset && !s.pins.faultLines[n] && (s.om.outputs[n]).faultable .assertsAheadOfRoundBegin then
        ((s.driveFaultLine n true).atRoundBegin (State.faultsAhead n)).closeEvent
      else s.driveFaultLine n true) := rfl

theorem exec_peerAbsence_mm {s t : State} {k : Station} (h : exec (.peerAbsence k) s = .next t) :
    t.mm = s.mm ∨ t.mm = (s.atRoundBegin fun x => x.withoutPeer k).mm := by
  obtain rfl := Host.Outcome.next.inj h
  split
  · exact .inr (by rw [State.closeEvent_mm]; rfl)
  · exact .inl rfl

theorem exec_outputFault_mm {s t : State} {n : OutputNo} (h : exec (.outputFault n .assertsAheadOfRoundBegin) s = .next t) :
    t.mm = s.mm ∨ t.mm = ((s.driveFaultLine n true).atRoundBegin (State.faultsAhead n)).mm := by
  rw [exec_outputFault_ahead] at h
  obtain rfl := Host.Outcome.next.inj h
  split
  · exact .inr (by simp)
  · exact .inl rfl

/-! ## Steps of a round begin that leave the counts of the outputs (R132, R134, R136) -/

/-- From one record of an output to another its attenuation, its counts, and what was done of them ahead stand. -/
structure OutputRecord.Steady (o p : OutputRecord) : Prop where
  atten : p.atten = o.atten
  overload : p.overload = o.overload
  decay : p.decay = o.decay
  takenDecay : p.taken.decay = o.taken.decay
  takenRecovery : p.taken.recovery = o.taken.recovery
  faulted : p.state = .faulted ↔ o.state = .faulted
  recovery : o.state = .faulted → p.recovery = o.recovery

theorem OutputRecord.Steady.refl (o : OutputRecord) : o.Steady o := ⟨rfl, rfl, rfl, rfl, rfl, .rfl, fun _ => rfl⟩

theorem OutputRecord.Steady.trans {o p q : OutputRecord} (h : o.Steady p) (k : p.Steady q) : o.Steady q where
  atten := k.atten.trans h.atten
  overload := k.overload.trans h.overload
  decay := k.decay.trans h.decay
  takenDecay := k.takenDecay.trans h.takenDecay
  takenRecovery := k.takenRecovery.trans h.takenRecovery
  faulted := k.faulted.trans h.faulted
  recovery hs := (k.recovery (h.faulted.mpr hs)).trans (h.recovery hs)

theorem OutputRecord.Steady.of_state {o : OutputRecord} {state : OutState} (h : o.state ≠ .faulted) (hstate : state ≠ .faulted) (ramp : Nat) :
    o.Steady { o with state := state, ramp := ramp } :=
  ⟨rfl, rfl, rfl, rfl, rfl, iff_of_false hstate h, fun hs => absurd hs h⟩

theorem OutputRecord.evaluate_steady (o : OutputRecord) (start continues : Bool) : o.Steady (o.evaluate start continues) := by
  cases hs : o.state with
  | silent | rampDown =>
    simp only [OutputRecord.evaluate, hs]
    split
    · exact .of_state (by simp [hs]) OutState.noConfusion _
    · exact .refl o
  | rampUp | playing =>
    simp only [OutputRecord.evaluate, hs]
    split
    · exact .refl o
    · exact .of_state (by simp [hs]) OutState.noConfusion _
  | off | faulted | retired =>
    simp only [OutputRecord.evaluate, hs]
    exact .refl o

theorem OutputRecord.toRest_steady {o : OutputRecord} (h : o.state ≠ .faulted) (active : Bool) : o.Steady (o.toRest active) := by
  cases active with
  | true => exact ⟨rfl, rfl, rfl, rfl, rfl, iff_of_false OutState.noConfusion h, fun hs => absurd hs h⟩
  | false => exact ⟨rfl, rfl, rfl, rfl, rfl, iff_of_false OutState.noConfusion h, fun hs => absurd hs h⟩

theorem OutputRecord.cut_steady (o : OutputRecord) (active : Bool) : o.Steady (o.cut active) := by
  simp only [OutputRecord.cut]
  split
  next hsounds => exact OutputRecord.toRest_steady (fun hs => by rw [hs] at hsounds; cases hsounds) active
  next => exact .refl o

theorem OutputRecord.rampMove_steady (o : OutputRecord) (active : Bool) : o.Steady (o.rampMove active) := by
  cases hs : o.state with
  | rampUp =>
    simp only [OutputRecord.rampMove, hs]
    split
    · exact .of_state (by simp [hs]) OutState.noConfusion _
    · rw [← hs]
      exact ⟨rfl, rfl, rfl, rfl, rfl, .rfl, fun _ => rfl⟩
  | rampDown =>
    simp only [OutputRecord.rampMove, hs]
    split
    · exact OutputRecord.toRest_steady (by simp [hs]) active
    · exact .of_state (by simp [hs]) OutState.noConfusion _
  | silent | playing | off | faulted | retired =>
    simp only [OutputRecord.rampMove, hs]
    exact .refl o

theorem OutputRecord.rampStep_steady (o : OutputRecord) (active : Bool) : o.Steady (o.rampStep active) := by
  simp only [OutputRecord.rampStep]
  split
  · exact ⟨rfl, rfl, rfl, rfl, rfl, .rfl, fun _ => rfl⟩
  · exact o.rampMove_steady active

/-- From one state to another the records of the outputs keep their counts. -/
def State.Steady (s t : State) : Prop := ∀ n : OutputNo, (s.om.outputs[n]).Steady t.om.outputs[n]

theorem State.Steady.refl (s : State) : s.Steady s := fun _ => .refl _

theorem State.Steady.trans {s t u : State} (h : s.Steady t) (k : t.Steady u) : s.Steady u := fun n => (h n).trans (k n)

theorem State.Steady.before {s t u : State} (h : s.Steady t) (k : u.om.outputs = t.om.outputs) : s.Steady u := fun n => by
  rw [k]
  exact h n

theorem State.Steady.after {s t u : State} (k : t.Steady u) (h : t.om.outputs = s.om.outputs) : s.Steady u := fun n => by
  rw [← h]
  exact k n

theorem State.mapOutputs_steady (s : State) {f : OutputNo → OutputRecord → OutputRecord} (h : ∀ n o, OutputRecord.Steady o (f n o)) :
    s.Steady (s.mapOutputs f) := fun n => by
  rw [State.mapOutputs_outputs]
  exact h n _

theorem State.evalGo_steady (s : State) : s.Steady s.evalGo := s.mapOutputs_steady fun _ o => o.evaluate_steady _ _

theorem State.cut_steady (s : State) : s.Steady s.cut :=
  State.Steady.trans (State.mapOutputs_steady s fun _ o => o.cut_steady s.isActive) (State.evalGo_steady _)

theorem State.rampRound_steady (s : State) : s.Steady s.rampRound := by
  have hstepped : s.Steady s.rampStep :=
    State.Steady.trans (State.mapOutputs_steady s fun _ o => o.rampStep_steady s.isActive) (State.evalGo_steady _)
  exact hstepped.before (by simp [State.rampRound])

theorem State.handDiscipline_steady (s : State) (old : Discipline) : s.Steady (s.handDiscipline old) := by
  simp only [State.handDiscipline]
  split
  · exact (State.cut_steady _).after rfl
  · exact fun _ => .refl _

theorem State.deriveRoles_steady (s : State) : s.Steady s.deriveRoles := fun n => by
  simp only [State.deriveRoles]
  rw [State.setRoleStatuses_outputs]
  simp only [State.rebuildIf_frame]
  exact ⟨rfl, rfl, rfl, rfl, rfl, .rfl, fun _ => rfl⟩

theorem State.peerRound_steady (s : State) : s.Steady s.peerRound := by
  simp only [State.peerRound]
  split
  · exact (State.deriveRoles_steady _).after rfl
  · exact fun _ => .refl _

theorem State.fireWatchdog_steady (s : State) : s.Steady s.fireWatchdog := by
  simp only [State.fireWatchdog]
  split
  · exact (State.cut_steady _).after rfl
  · exact fun _ => .refl _

theorem State.presentRunning_steady (s : State) (e : RingEntry) : s.Steady (s.presentRunning e) := by
  simp only [State.presentRunning, State.countMissing]
  (repeat' split)
  · exact (State.Steady.refl s).before (by simp)
  · exact (State.fireWatchdog_steady _).after (by simp)
  · exact (State.Steady.refl s).before (by simp)

theorem State.present_steady (s : State) : s.Steady s.present := by
  simp only [State.present, State.presentFilling]
  (repeat' split)
  · exact .refl s
  · exact .refl s
  · exact .refl s
  · exact (State.presentRunning_steady _ _).after rfl
  · exact .refl s
  · exact s.presentRunning_steady _

theorem State.receiverRound_steady (s : State) (d : Nat) : s.Steady (s.receiverRound d) := by
  simp only [State.receiverRound]
  split
  · exact s.present_steady
  · exact (State.Steady.refl s).before (by simp)

theorem State.heardRound_steady (s : State) (r : RoundBegin) : s.Steady (s.heardRound r) := by
  have hramped : s.Steady (if r.rampOrder == .stepFirst then s.swapRound.rampRound else s.swapRound) := by
    split
    · exact (State.rampRound_steady _).after rfl
    · exact .refl s
  refine hramped.trans (State.Steady.trans ?_ (State.peerRound_steady _))
  exact (State.handDiscipline_steady _ _).after rfl

/-- A round begin between the tuner's step and the outputs' own. -/
def State.beforeOutputs (s : State) (r : RoundBegin) : State :=
  let evaluated := (s.eachSource State.offerAgain).evalGo.switchIfDown
  let ramped := if r.rampOrder == .changeFirst then evaluated.rampRound else evaluated
  { ramped with sr := { ramped.sr with gathered := [] }, om := { ramped.om with carrier := 0 } }

theorem State.afterTuner_eq (s : State) (r : RoundBegin) : s.afterTuner r = (s.beforeOutputs r).outputRound := rfl

/-- The state in which the outputs of a round begin take their own steps. -/
def State.atOutputs (s : State) (r : RoundBegin) : State := ((s.beforeTuner r).tunerRound r.frontEnd r.demodulated).beforeOutputs r

theorem State.beforeOutputs_steady (s : State) (r : RoundBegin) : s.Steady (s.beforeOutputs r) := by
  have hdown : s.Steady (s.eachSource State.offerAgain).evalGo.switchIfDown := by
    refine State.Steady.before (t := (s.eachSource State.offerAgain).evalGo) ?_ (by simp)
    exact (State.evalGo_steady _).after (by simp [State.eachSource])
  simp only [State.beforeOutputs]
  split
  · exact (hdown.trans (State.rampRound_steady _)).before rfl
  · exact hdown.before rfl

theorem State.atOutputs_steady (s : State) (r : RoundBegin) : s.Steady (s.atOutputs r) := by
  have hpresented : s.Steady ((s.heardRound r).receiverRound s.rt.adoptedD) :=
    (s.heardRound_steady r).trans (State.receiverRound_steady _ _)
  have htuned : s.Steady ((s.beforeTuner r).tunerRound r.frontEnd r.demodulated) := hpresented.before (by simp [State.beforeTuner])
  exact htuned.trans (State.beforeOutputs_steady _ r)

theorem State.peerRound_mode (s : State) : s.peerRound.pt.mode = s.pt.mode := by
  simp only [State.peerRound]
  split <;> simp

theorem State.atOutputs_keeps (s : State) (r : RoundBegin) :
    (s.atOutputs r).ownRecord = s.ownRecord ∧ (s.atOutputs r).pt.mode = s.pt.mode := by
  simp only [State.atOutputs, State.beforeOutputs, State.beforeTuner, State.heardRound]
  (repeat' split) <;> simp [State.ownRecord, State.ownZone, State.eachSource, State.peerRound_mode]

/-! ## The outputs' own steps (R132, R134, R136) -/

/-- The volume and decay steps of an output. -/
def OutputRecord.slewAndDecay (o : OutputRecord) (volume : Nat) : OutputRecord := (o.slew volume).decayStep

theorem OutputRecord.decayStep_counts (o : OutputRecord) :
    (o.decayStep.overload, o.decayStep.decay) =
      if o.taken.decay = true ∨ o.overload = 0 ∨ 4 ≤ o.overload then (o.overload, o.decay)
      else if 4095 ≤ o.decay then (o.overload - 1, 0)
      else (o.overload, o.decay + 1) := by
  by_cases htaken : o.taken.decay = true
  · simp [OutputRecord.decayStep, htaken]
  · by_cases hdecays : 1 ≤ o.overload ∧ o.overload ≤ 3
    · have hcounts : ¬(o.taken.decay = true ∨ o.overload = 0 ∨ 4 ≤ o.overload) := by
        rintro (h | h | h)
        · exact htaken h
        · omega
        · omega
      rw [if_neg hcounts, OutputRecord.decayStep, if_neg htaken, OutputRecord.decayMove, if_pos hdecays]
      split <;> rfl
    · have hstands : o.overload = 0 ∨ 4 ≤ o.overload := by omega
      rw [if_pos (.inr hstands), OutputRecord.decayStep, if_neg htaken, OutputRecord.decayMove, if_neg hdecays]

theorem OutputRecord.slewAndDecay_counts (o : OutputRecord) (volume : Nat) :
    ((o.slewAndDecay volume).overload, (o.slewAndDecay volume).decay) =
      if o.taken.decay = true ∨ o.overload = 0 ∨ 4 ≤ o.overload then (o.overload, o.decay)
      else if 4095 ≤ o.decay then (o.overload - 1, 0)
      else (o.overload, o.decay + 1) := (o.slew volume).decayStep_counts

theorem OutputRecord.decayStep_keeps (o : OutputRecord) :
    o.decayStep.state = o.state ∧ o.decayStep.recovery = o.recovery ∧ o.decayStep.taken.recovery = o.taken.recovery
      ∧ o.decayStep.atten = o.atten := by
  rw [OutputRecord.decayStep, OutputRecord.decayMove]
  (repeat' split) <;> exact ⟨rfl, rfl, rfl, rfl⟩

theorem OutputRecord.slewAndDecay_keeps (o : OutputRecord) (volume : Nat) :
    (o.slewAndDecay volume).state = o.state ∧ (o.slewAndDecay volume).recovery = o.recovery
      ∧ (o.slewAndDecay volume).taken.recovery = o.taken.recovery
      ∧ (o.slewAndDecay volume).atten =
        if o.atten < volume then o.atten + 1 else if volume < o.atten then o.atten - 1 else o.atten :=
  (o.slew volume).decayStep_keeps

theorem State.setOutput_other {s : State} {i n : OutputNo} (h : i ≠ n) (o : OutputRecord) :
    (s.om.outputs[n]).Steady (s.setOutput i o).om.outputs[n] := by
  rw [State.setOutput_outputs, if_neg h]
  exact .refl _

/-- The end of a recovery at one output leaves the counts of another. -/
theorem State.endRecovery_other {s : State} {i n : OutputNo} (h : i ≠ n) : (s.om.outputs[n]).Steady (s.endRecovery i).om.outputs[n] := by
  obtain ⟨x, heq, hom⟩ := s.endRecovery_outputs i
  have hset := State.setOutput_other (s := s) h
    (if s.pins.faultLines[i] = true then { s.om.outputs[i] with recovery := 0 }.fault else s.om.outputs[i].toRest s.isActive)
  rw [← hom] at hset
  rw [heq]
  exact hset.trans (State.evalGo_steady x n)

theorem State.recoveryStep_other {s : State} {i n : OutputNo} (h : i ≠ n) : (s.om.outputs[n]).Steady (s.recoveryStep i).om.outputs[n] := by
  simp only [State.recoveryStep]
  (repeat' split)
  · exact State.setOutput_other h _
  · exact (State.endRecovery_other h).trans (State.setOutput_other h _)
  · exact State.setOutput_other h _

/-- Each output takes its recovery step once, from a record with the counts that it had. -/
theorem State.recoveryRound_reaches (s : State) (n : OutputNo) :
    ∃ x : State, (s.om.outputs[n]).Steady x.om.outputs[n]
      ∧ ((x.recoveryStep n).om.outputs[n]).Steady (s.eachOutput State.recoveryStep).om.outputs[n] := by
  match n with
  | 0 =>
    exact ⟨s, .refl _, ((State.recoveryStep_other (by decide)).trans (State.recoveryStep_other (by decide))).trans
      (State.recoveryStep_other (by decide))⟩
  | 1 =>
    exact ⟨s.recoveryStep 0, State.recoveryStep_other (by decide),
      (State.recoveryStep_other (by decide)).trans (State.recoveryStep_other (by decide))⟩
  | 2 =>
    exact ⟨(s.recoveryStep 0).recoveryStep 1, (State.recoveryStep_other (by decide)).trans (State.recoveryStep_other (by decide)),
      State.recoveryStep_other (by decide)⟩
  | 3 =>
    exact ⟨((s.recoveryStep 0).recoveryStep 1).recoveryStep 2,
      ((State.recoveryStep_other (by decide)).trans (State.recoveryStep_other (by decide))).trans (State.recoveryStep_other (by decide)), .refl _⟩

/-- A recovery step that a command has made is not made again. -/
theorem State.recoveryStep_taken {s : State} {n : OutputNo} (h : s.om.outputs[n].taken.recovery = true) :
    s.recoveryStep n =
      s.setOutput n { s.om.outputs[n] with
        recovered := s.om.outputs[n].recovered - 1, taken := { (s.om.outputs[n]).taken with recovery := false } } := if_pos h

theorem State.recoveryStep_ends {s : State} {n : OutputNo} (h : ¬s.om.outputs[n].taken.recovery = true)
    (hends : s.om.outputs[n].state = .faulted ∧ s.om.outputs[n].recovery ≤ 1) : s.recoveryStep n = s.recoverAt n 1 :=
  (if_neg h).trans (if_pos (by simpa using hends))

theorem State.recoveryStep_goesOn {s : State} {n : OutputNo} (h : ¬s.om.outputs[n].taken.recovery = true)
    (hends : ¬(s.om.outputs[n].state = .faulted ∧ s.om.outputs[n].recovery ≤ 1)) :
    s.recoveryStep n =
      s.setOutput n { s.om.outputs[n] with recovery := s.om.outputs[n].recovery - 1, recovered := s.om.outputs[n].recovered - 1 } :=
  (if_neg h).trans (if_neg (by simpa using hends))

theorem State.setOutput_same (s : State) (n : OutputNo) (o : OutputRecord) : (s.setOutput n o).om.outputs[n] = o := by
  rw [State.setOutput_outputs, if_pos rfl]

/-- A recovery step that does not end the recovery. -/
theorem State.recoveryStep_counts {s : State} {n : OutputNo}
    (h : s.om.outputs[n].state = .faulted → 2 ≤ s.om.outputs[n].recovery ∨ s.om.outputs[n].taken.recovery = true) :
    (s.recoveryStep n).om.outputs[n].state = s.om.outputs[n].state ∧ (s.recoveryStep n).om.outputs[n].overload = s.om.outputs[n].overload
      ∧ (s.recoveryStep n).om.outputs[n].decay = s.om.outputs[n].decay
      ∧ (s.recoveryStep n).om.outputs[n].recovery =
        if s.om.outputs[n].taken.recovery = true then s.om.outputs[n].recovery else s.om.outputs[n].recovery - 1 := by
  by_cases htaken : s.om.outputs[n].taken.recovery = true
  · rw [State.recoveryStep_taken htaken, State.setOutput_same, if_pos htaken]
    exact ⟨rfl, rfl, rfl, rfl⟩
  · have hends : ¬(s.om.outputs[n].state = .faulted ∧ s.om.outputs[n].recovery ≤ 1) := fun ⟨hfaulted, hlast⟩ => by
      have hlong := (h hfaulted).resolve_right htaken
      omega
    rw [State.recoveryStep_goesOn htaken hends, State.setOutput_same, if_neg htaken]
    exact ⟨rfl, rfl, rfl, rfl⟩

theorem OutputRecord.fault_atten (o : OutputRecord) : o.fault.atten = o.atten := by
  rw [OutputRecord.fault_eq]

theorem State.recoveryStep_atten (s : State) (n : OutputNo) : (s.recoveryStep n).om.outputs[n].atten = s.om.outputs[n].atten := by
  by_cases htaken : s.om.outputs[n].taken.recovery = true
  · rw [State.recoveryStep_taken htaken, State.setOutput_same]
  · by_cases hends : s.om.outputs[n].state = .faulted ∧ s.om.outputs[n].recovery ≤ 1
    · obtain ⟨x, heq, hom⟩ := s.endRecovery_outputs n
      rw [State.recoveryStep_ends htaken hends, State.recoverAt, State.setOutput_same]
      simp only [OutputRecord.recoverAt]
      rw [heq, (State.evalGo_steady x n).atten, hom, State.setOutput_same]
      split
      · exact OutputRecord.fault_atten _
      · cases s.isActive <;> rfl
    · rw [State.recoveryStep_goesOn htaken hends, State.setOutput_same]

theorem State.outputRound_eq (s : State) :
    s.outputRound = (s.mapOutputs fun _ o => o.slewAndDecay s.ownRecord.volume).eachOutput State.recoveryStep := rfl

theorem State.outputRound_atten (s : State) (n : OutputNo) :
    s.outputRound.om.outputs[n].atten =
      if s.om.outputs[n].atten < s.ownRecord.volume then s.om.outputs[n].atten + 1
      else if s.ownRecord.volume < s.om.outputs[n].atten then s.om.outputs[n].atten - 1
      else s.om.outputs[n].atten := by
  obtain ⟨-, -, -, hslew⟩ := (s.om.outputs[n]).slewAndDecay_keeps s.ownRecord.volume
  obtain ⟨x, hbefore, hafter⟩ := (s.mapOutputs fun _ o => o.slewAndDecay s.ownRecord.volume).recoveryRound_reaches n
  rw [State.mapOutputs_outputs] at hbefore
  rw [State.outputRound_eq, hafter.atten, State.recoveryStep_atten, hbefore.atten, hslew]

theorem State.outputRound_counts {s : State} {n : OutputNo}
    (h : s.om.outputs[n].state = .faulted → 2 ≤ s.om.outputs[n].recovery ∨ s.om.outputs[n].taken.recovery = true) :
    (s.om.outputs[n].state = .faulted → s.outputRound.om.outputs[n].state = .faulted ∧ s.outputRound.om.outputs[n].recovery =
        if s.om.outputs[n].taken.recovery = true then s.om.outputs[n].recovery else s.om.outputs[n].recovery - 1)
      ∧ s.outputRound.om.outputs[n].overload = ((s.om.outputs[n]).slewAndDecay s.ownRecord.volume).overload
      ∧ s.outputRound.om.outputs[n].decay = ((s.om.outputs[n]).slewAndDecay s.ownRecord.volume).decay := by
  obtain ⟨hstate, hrecovery, htaken, -⟩ := (s.om.outputs[n]).slewAndDecay_keeps s.ownRecord.volume
  obtain ⟨x, hbefore, hafter⟩ := (s.mapOutputs fun _ o => o.slewAndDecay s.ownRecord.volume).recoveryRound_reaches n
  rw [State.mapOutputs_outputs] at hbefore
  have hfaulted : x.om.outputs[n].state = .faulted ↔ s.om.outputs[n].state = .faulted := by rw [hbefore.faulted, hstate]
  have hcount : s.om.outputs[n].state = .faulted → x.om.outputs[n].recovery = s.om.outputs[n].recovery := fun hs =>
    (hbefore.recovery (hstate.trans hs)).trans hrecovery
  have hahead : x.om.outputs[n].taken.recovery = s.om.outputs[n].taken.recovery := hbefore.takenRecovery.trans htaken
  obtain ⟨hsame, hoverload, hdecay, hstep⟩ := State.recoveryStep_counts (s := x) (n := n) fun hx => by
    rw [hcount (hfaulted.mp hx), hahead]
    exact h (hfaulted.mp hx)
  rw [State.outputRound_eq]
  refine ⟨fun hs => ?_, hafter.overload.trans (hoverload.trans hbefore.overload), hafter.decay.trans (hdecay.trans hbefore.decay)⟩
  have hx : (x.recoveryStep n).om.outputs[n].state = .faulted := hsame.trans (hfaulted.mpr hs)
  refine ⟨hafter.faulted.mpr hx, ?_⟩
  rw [hafter.recovery hx, hstep, hahead, hcount hs]

/-! ## Attenuation at the end of the join window (R190) -/

/-- From one state to another every output keeps its attenuation. -/
def State.SameAtten (s t : State) : Prop := ∀ n : OutputNo, t.om.outputs[n].atten = s.om.outputs[n].atten

theorem State.SameAtten.trans {s t u : State} (h : s.SameAtten t) (k : t.SameAtten u) : s.SameAtten u := fun n => (k n).trans (h n)

theorem State.SameAtten.of_om {s t : State} (h : t.om = s.om) : s.SameAtten t := fun n => by rw [h]

theorem State.SameAtten.before {s t u : State} (h : s.SameAtten t) (k : u.om = t.om) : s.SameAtten u := h.trans (.of_om k)

theorem State.setOutput_sameAtten {s : State} {n : OutputNo} {o : OutputRecord} (h : o.atten = s.om.outputs[n].atten) :
    s.SameAtten (s.setOutput n o) := fun j => by
  rw [State.setOutput_outputs]
  split
  next heq =>
    subst heq
    exact h
  next => rfl

theorem State.evalGo_sameAtten (s : State) : s.SameAtten s.evalGo := fun n => (s.evalGo_steady n).atten

theorem State.countFaultIf_sameAtten (s : State) (n : OutputNo) (b : Bool) : s.SameAtten (s.countFaultIf n b) := by
  cases b with
  | false => exact fun _ => rfl
  | true => exact State.SameAtten.before (State.setOutput_sameAtten (s.om.outputs[n]).fault_atten) (by simp [State.countFaultIf, State.countFault])

theorem State.activateOutput_sameAtten (s : State) (n : OutputNo) : s.SameAtten (s.activateOutput n) := by
  have hretired : s.SameAtten (s.setOutput n (s.om.outputs[n]).toRetired) := State.setOutput_sameAtten rfl
  have hsilent : s.SameAtten (s.setOutput n (s.om.outputs[n]).toSilent) := State.setOutput_sameAtten rfl
  simp only [State.activateOutput]
  (repeat' split)
  · exact hretired.before (by simp)
  · exact hsilent.trans (State.countFaultIf_sameAtten _ n _)
  · exact fun _ => rfl

theorem State.quietOutput_sameAtten (s : State) (n : OutputNo) : s.SameAtten (s.quietOutput n) := by
  simp only [State.quietOutput]
  split
  · exact State.setOutput_sameAtten rfl
  · exact fun _ => rfl

theorem State.standbyOutput_sameAtten (s : State) (n : OutputNo) : s.SameAtten (s.standbyOutput n) :=
  State.SameAtten.before (State.setOutput_sameAtten (o := (s.om.outputs[n]).toOff) rfl) (by simp [State.standbyOutput])

theorem State.eachOutput_sameAtten {f : State → OutputNo → State} (hf : ∀ x n, State.SameAtten x (f x n)) (s : State) :
    s.SameAtten (s.eachOutput f) :=
  State.eachOutput_keeps (P := s.SameAtten) (fun _ => rfl) fun x n hx => hx.trans (hf x n)

theorem State.enterMode_sameAtten (s : State) (old : Mode) : s.SameAtten (s.enterMode old) := by
  have hawake : (if old == .standby then s.wake else s).om = s.om := by split <;> simp
  cases hm : s.pt.mode with
  | joining =>
    simp only [State.enterMode, hm]
    exact fun _ => rfl
  | active =>
    simp only [State.enterMode, hm]
    have hactive := (State.SameAtten.of_om hawake).trans (State.eachOutput_sameAtten State.activateOutput_sameAtten _)
    exact (hactive.before (State.checkDecoder_om _)).trans (State.evalGo_sameAtten _)
  | serving =>
    simp only [State.enterMode, hm]
    have hquiet := (State.SameAtten.of_om hawake).trans (State.eachOutput_sameAtten State.quietOutput_sameAtten _)
    exact (hquiet.before (State.checkDecoder_om _)).trans (State.evalGo_sameAtten _)
  | standby =>
    simp only [State.enterMode, hm]
    refine State.SameAtten.trans ?_ (State.evalGo_sameAtten _)
    exact (State.eachOutput_sameAtten State.standbyOutput_sameAtten s).before (by simp)

theorem State.changeMode_sameAtten (s : State) (m : Mode) : s.SameAtten (s.changeMode m) := by
  simp only [State.changeMode]
  split
  · exact fun _ => rfl
  · have hannounced : s.SameAtten { s with pt := { s.pt with mode := m } }.announce := fun _ => rfl
    exact hannounced.trans (State.enterMode_sameAtten _ _)

theorem State.joinRound_sameAtten (s : State) : s.SameAtten s.joinRound := by
  simp only [State.joinRound]
  (repeat' split)
  · have hclosed : s.SameAtten s.closeWindow := fun _ => rfl
    have hentered := hclosed.trans (State.changeMode_sameAtten s.closeWindow s.closeWindow.derivedMode)
    exact hentered.before (by simp [State.endWindow, State.eachSource])
  · exact fun _ => rfl
  · exact fun _ => rfl

theorem State.joinRound_stands {s : State} (h : s.pt.mode ≠ .joining) : s.joinRound = s := if_neg (by simpa using h)

theorem State.roundBegin_atOutputs (s : State) (r : RoundBegin) :
    s.roundBegin r = (s.atOutputs r).outputRound.joinRound.sourceClose.presenceRound := s.roundBegin_parts r

end Sys2Proof.Machine

namespace Sys2Proof.Proofs

open Sys2Proof.Machine

/-- Settles O36: the swap made ahead by a command, and the round begin, whose steps before the outputs' own leave their counts. -/
theorem roundBeginSwapsAndSlews : Obligations.RoundBeginSwapsAndSlews := by
  intro r s hjoined
  refine ⟨fun k n c t hc hexec hfresh => ?_, _, exec_roundBegin r hjoined, ?_⟩
  · have hstands : t.mm = s.mm → (t.mm.swapped = true →
          t.mm.dirty = true ∧ t.mm.active = if s.mm.dirty = true then s.mm.pending else s.mm.active)
        ∧ (t.mm.swapped = false → t.mm.active = s.mm.active ∧ t.mm.pending = s.mm.pending ∧ t.mm.dirty = s.mm.dirty) := fun hmm => by
      rw [hmm, hfresh]
      exact ⟨fun h => (Bool.false_ne_true h).elim, fun _ => ⟨rfl, rfl, rfl⟩⟩
    rcases hc with rfl | rfl
    · rcases exec_peerAbsence_mm hexec with hmm | hmm
      · exact hstands hmm
      · rw [hmm]
        exact State.atRoundBegin_swaps (fun x => x.withoutPeer_matrixWaits k) hfresh
    · rcases exec_outputFault_mm hexec with hmm | hmm
      · exact hstands hmm
      · rw [hmm]
        exact State.atRoundBegin_swaps (s := s.driveFaultLine n true) (fun x => x.faultsAhead_matrixWaits n) hfresh
  · obtain ⟨hactive, hswapped, hdirty⟩ := s.mm.swap_active
    have hwaits := s.roundBegin_matrixWaits r
    obtain ⟨hown, hmode⟩ := s.atOutputs_keeps r
    have hsteady := s.atOutputs_steady r
    have hended : (s.roundBegin r).closeEvent.om = (s.atOutputs r).outputRound.joinRound.om := by
      rw [State.roundBegin_atOutputs]
      simp
    rw [State.closeEvent_mm, hended]
    refine ⟨hwaits.active.trans hactive, hwaits.swapped.trans hswapped, fun hs hd => hwaits.dirty (hdirty hs hd), fun n => ?_,
      fun n hjoining hcount => ?_⟩
    · rw [State.joinRound_sameAtten _ n, State.outputRound_atten, hown, (hsteady n).atten]
    · have hsame : (s.atOutputs r).outputRound.joinRound = (s.atOutputs r).outputRound :=
        State.joinRound_stands (by simpa [hmode] using hjoining)
      have hfaulted := (hsteady n).faulted
      obtain ⟨hrecovers, hoverload, hdecay⟩ := State.outputRound_counts (s := s.atOutputs r) (n := n) fun hs => by
        rw [(hsteady n).recovery (hfaulted.mp hs), (hsteady n).takenRecovery]
        exact hcount (hfaulted.mp hs)
      rw [hsame]
      refine ⟨fun hs => ?_, ?_⟩
      · obtain ⟨hstate, hrecovery⟩ := hrecovers (hfaulted.mpr hs)
        rw [hrecovery, (hsteady n).recovery hs, (hsteady n).takenRecovery]
        exact ⟨hstate, rfl⟩
      · rw [hoverload, hdecay, OutputRecord.slewAndDecay_counts, (hsteady n).takenDecay, (hsteady n).overload, (hsteady n).decay]

end Sys2Proof.Proofs
end

section
/-! PROOF. Wire formats (chapter 13): what the encoder of a mark, a slot and a control message writes, the reader of that format finds. One lemma per
code, then one per byte that packs several fields, then one per message. -/

namespace Sys2Proof.Machine

open Laws.Wire

/-! ## Codes -/

@[simp] theorem sourceOfCode_code (s : Source) : sourceOfCode (Source.code s) = some s := by cases s <;> rfl

@[simp] theorem kindOfCode_code (k : Kind) : kindOfCode (Kind.code k) = some k := by cases k <;> rfl

@[simp] theorem listeningOfCode_code (l : ListeningMode) : listeningOfCode (ListeningMode.code l) = some l := by cases l <;> rfl

@[simp] theorem modeOfCode_code (m : Mode) : modeOfCode (Mode.code m) = some m := by cases m <;> rfl

@[simp] theorem healthOfCode_code (h : Health) : healthOfCode (Health.code h) = some h := by cases h <;> rfl

@[simp] theorem announcedKindOfCode_encodeAnnouncedKind (k : Option Kind) : announcedKindOfCode (encodeAnnouncedKind k) = some k := by
  rcases k with _ | _ | _ <;> rfl

@[simp] theorem roleOfCode_encodeRole (r : Option Role) : roleOfCode (encodeRole r) = some r := by
  rcases r with _ | r
  · rfl
  · cases r <;> rfl

theorem Source.code_lt (s : Source) : Source.code s < 3 := by cases s <;> decide

theorem Kind.code_lt (k : Kind) : Kind.code k < 2 := by cases k <;> decide

theorem ListeningMode.code_lt (l : ListeningMode) : ListeningMode.code l < 3 := by cases l <;> decide

theorem Mode.code_lt (m : Mode) : Mode.code m < 4 := by cases m <;> decide

theorem Health.code_lt (h : Health) : Health.code h < 3 := by cases h <;> decide

theorem encodeAnnouncedKind_lt (k : Option Kind) : encodeAnnouncedKind k < 4 := by rcases k with _ | _ | _ <;> decide

theorem encodeRole_lt (r : Option Role) : encodeRole r < 16 := by
  rcases r with _ | r
  · decide
  · cases r <;> decide

/-! ## Fields of a byte -/

/-- A byte that holds a number below 256 gives it back. -/
theorem toNat_byte {n : Nat} (h : n < 256) : (BitVec.ofNat 8 n).toNat = n := by
  rw [BitVec.toNat_ofNat]; exact Nat.mod_eq_of_lt h

/-- A field of a byte is a quotient and a remainder of the number that the byte holds. -/
theorem toNat_extract_byte {n : Nat} (h : n < 256) (start len : Nat) :
    ((BitVec.ofNat 8 n).extractLsb' start len).toNat = n / 2 ^ start % 2 ^ len := by
  rw [BitVec.extractLsb'_toNat, toNat_byte h, Nat.shiftRight_eq_div_pow]

/-- The station field of a byte. -/
theorem stationOfByte_of {n : Nat} (h : n < 256) {station : Station} (hs : n / 32 = station.val) :
    stationOfByte (BitVec.ofNat 8 n) = station := by
  apply Fin.ext
  show ((BitVec.ofNat 8 n).extractLsb' 5 3).toNat = station.val
  rw [toNat_extract_byte h]
  omega

/-- The two flags of a zone record and of a PRESENCE are read as they were written. -/
theorem flags_low (a b : Bool) : (BitVec.ofNat 8 (boolBit a 1 + boolBit b 0)).getLsbD 1 = a ∧
    (BitVec.ofNat 8 (boolBit a 1 + boolBit b 0)).getLsbD 0 = b := by
  cases a <;> cases b <;> decide

/-- So are the two flags of a slot header. -/
theorem flags_high (a b : Bool) : (BitVec.ofNat 8 (boolBit a 7 + boolBit b 6)).getLsbD 7 = a ∧
    (BitVec.ofNat 8 (boolBit a 7 + boolBit b 6)).getLsbD 6 = b := by
  cases a <;> cases b <;> decide

/-- The number of a 16-bit field's two bytes is the field. -/
theorem natOfBytes_bytes16 (x : BitVec 16) : natOfBytes (bytes16 x) = x.toNat := by
  have := x.isLt
  simp only [natOfBytes, bytes16, List.foldl_cons, List.foldl_nil, BitVec.extractLsb'_toNat, Nat.shiftRight_eq_div_pow]
  omega

/-! ## Streams and zone records -/

theorem decodeProgram_encodeStream (s : Stream) : decodeProgram (encodeStream s) = some (some s) := by
  have hlt : 32 * s.station.val + Source.code s.source < 256 := by have := Source.code_lt s.source; omega
  have hne : encodeStream s ≠ 0xFF := by
    intro h
    have := congrArg BitVec.toNat h
    rw [encodeStream, toNat_byte hlt] at this
    have := Source.code_lt s.source
    simp at *
    omega
  have hsrc : ((encodeStream s).extractLsb' 0 2).toNat = Source.code s.source := by
    rw [encodeStream, toNat_extract_byte hlt]
    have := Source.code_lt s.source
    omega
  have hst : stationOfByte (encodeStream s) = s.station :=
    stationOfByte_of hlt (by have := Source.code_lt s.source; omega)
  simp only [decodeProgram, beq_false_of_ne hne, hsrc, hst, sourceOfCode_code]
  rfl

theorem decodeProgram_encodeProgram (p : Option Stream) : decodeProgram (encodeProgram p) = some p := by
  cases p with
  | none => rfl
  | some s => exact decodeProgram_encodeStream s

theorem decodeStream_encodeStream (s : Stream) : decodeStream (encodeStream s) = some s := by
  simp [decodeStream, decodeProgram_encodeStream]

/-- A record that stands in a payload at a position is read there as it was written. -/
theorem zoneStateRecord_encoded {r : ZoneRecord} (hr : r.wf) (before after : List Byte) :
    zoneStateRecord (before ++ (encodeZoneRecord r ++ after)) before.length = some r := by
  obtain ⟨hstandby, hvolume⟩ := hr
  have hl : (BitVec.ofNat 8 (ListeningMode.code r.listening)).toNat = ListeningMode.code r.listening :=
    toNat_byte (by have := ListeningMode.code_lt r.listening; omega)
  have hv : volumeOfByte (BitVec.ofNat 8 r.volume) = some r.volume := by
    simp [volumeOfByte, inRange, toNat_byte (show r.volume < 256 by omega), hvolume]
  obtain ⟨hmute, hstand⟩ := flags_low r.mute r.standby
  have hok : ¬ (r.standby = true ∧ r.program.isSome = true) := by
    rintro ⟨hs, hp⟩
    simp [hstandby hs] at hp
  simp [zoneStateRecord, encodeZoneRecord, decodeProgram_encodeProgram, hl, hv, hmute, hstand, hok, -BitVec.getLsbD_eq_getElem]

/-! ## Marks and slots -/

theorem readMark_encodeMark {m : MarkFields} (hd : m.d < 256) : readMark (BitVec.ofNat 3 m.sender.val) (encodeMark m) = some m := by
  have hcheck : checkAgrees (senderByte (BitVec.ofNat 3 m.sender.val) :: encodeMark m) = true :=
    withCheck_agrees (senderByte (BitVec.ofNat 3 m.sender.val) :: (bytes16 m.number ++ [BitVec.ofNat 8 m.d]))
  have hlen : (encodeMark m).length = 5 := by simp [encodeMark, bytes16]
  have hnumber : (encodeMark m).take 2 = bytes16 m.number := by simp [encodeMark, bytes16]
  have hbyte : ((encodeMark m).drop 2).take 1 = [BitVec.ofNat 8 m.d] := by simp [encodeMark, bytes16]
  have hsender : (BitVec.ofNat 3 m.sender.val).toFin = m.sender := by
    apply Fin.ext
    show (BitVec.ofNat 3 m.sender.val).toNat = m.sender.val
    rw [BitVec.toNat_ofNat]
    exact Nat.mod_eq_of_lt m.sender.isLt
  simp only [readMark, hlen, hcheck, hnumber, hbyte, natOfBytes_bytes16, hsender]
  simp [natOfBytes, Nat.mod_eq_of_lt hd]

/-- A slot of 144 data bytes and its own check word, whose part lies in its run, is read as its fields. -/
theorem readSlot_withCheck {slot : SlotNo} {b0 b1 b2 : Byte} {data : List Byte} {source : Source} {kind : Kind} {part : Nat}
    (hsource : sourceOfCode (b0.extractLsb' 3 2).toNat = some source) (hkind : kindOfCode (b0.extractLsb' 2 1).toNat = some kind)
    (hpart : (b0.extractLsb' 0 2).toNat = part) (hdata : data.length = 144)
    (hwidth : part < widthOf kind) (hrun : part ≤ slot.val) (hend : slot.val - part + widthOf kind ≤ 24) :
    readSlot slot (withCheck (b0 :: b1 :: b2 :: data)) =
      some ({ stream := { station := stationOfByte b0, source := source }, kind := kind, part := part, muted := b1.getLsbD 7,
              noBlock := b1.getLsbD 6, capture := b2 }, data) := by
  have hcheck := withCheck_agrees (b0 :: b1 :: b2 :: data)
  simp only [withCheck, List.cons_append] at hcheck ⊢
  simp only [readSlot, hsource, hkind, hpart, hcheck, List.take_left' hdata]
  rw [if_pos (by simp [bytes16, hdata, hwidth, hrun, hend])]

theorem readSlot_encodeSlot {h : SlotHeader} {data : List Byte} {slot : SlotNo} (hdata : data.length = 144) (hpart : h.part < widthOf h.kind)
    (hrun : h.part ≤ slot.val) (hend : slot.val - h.part + widthOf h.kind ≤ 24) : readSlot slot (encodeSlot h data) = some (h, data) := by
  have hsource := Source.code_lt h.stream.source
  have hkind := Kind.code_lt h.kind
  have hwidth : widthOf h.kind ≤ 4 := by cases h.kind <;> decide
  have hlt : 32 * h.stream.station.val + 8 * Source.code h.stream.source + 4 * Kind.code h.kind + h.part < 256 := by omega
  obtain ⟨hmuted, hblock⟩ := flags_high h.muted h.noBlock
  rw [encodeSlot, readSlot_withCheck (source := h.stream.source) (kind := h.kind) (part := h.part) _ _ _ hdata hpart hrun hend,
    stationOfByte_of hlt (station := h.stream.station) (by omega), hmuted, hblock]
  · rw [toNat_extract_byte hlt, ← sourceOfCode_code]; congr 1; omega
  · rw [toNat_extract_byte hlt, ← kindOfCode_code]; congr 1; omega
  · rw [toNat_extract_byte hlt]; omega

/-! ## The body of a message -/

theorem Msg.code_lt (m : Msg) : m.code < 32 := by cases m <;> simp [Msg.code]

theorem codeOfBody_encodeBody (m : Msg) : codeOfBody (encodeBody m) = BitVec.ofNat 5 m.code := by
  have hlt := m.code_lt
  apply BitVec.eq_of_toNat_eq
  show ((BitVec.ofNat 8 (8 * m.code)).extractLsb' 3 5).toNat = _
  rw [toNat_extract_byte (by omega), BitVec.toNat_ofNat]
  omega

theorem payloadOfBody_encodeBody (m : Msg) : payloadOfBody (encodeBody m) = encodePayload m := by
  simp [payloadOfBody, encodeBody, withCheck, bytes16]

theorem bodyIsVoid_encodeBody {m : Msg} (h : (encodePayload m).length ≤ 24) : bodyIsVoid (encodeBody m) = false :=
  body_sound h _

/-- The class of a message is the class of its kind (section 2.3). -/
theorem classOfKind_code (m : Msg) : classOfKind (BitVec.ofNat 5 m.code) = some m.cls := by cases m <;> rfl

theorem cls_toNat (m : Msg) : (BitVec.ofNat 3 m.cls).toNat = m.cls := by cases m <;> rfl

/-- The take of a message that a station sends is the command of its kind. -/
theorem commandOfBody_encodeBody {m : Msg} (h : (encodePayload m).length ≤ 24) (sender : Station) :
    commandOfBody ⟨BitVec.ofNat 3 m.cls, sender⟩ (encodeBody m) = commandOfKind (BitVec.ofNat 5 m.code) sender (encodePayload m) := by
  simp only [commandOfBody, bodyIsVoid_encodeBody h, codeOfBody_encodeBody, classOfKind_code, cls_toNat, payloadOfBody_encodeBody]
  simp

/-- A body whose code names no kind of the field's class is taken as a message of an unknown kind (R31, R192). -/
theorem commandOfBody_unknown {field : ArbField} {body : List Byte} (hvoid : bodyIsVoid body = false)
    (hclass : classOfKind (codeOfBody body) ≠ some field.cls.toNat) :
    commandOfBody field body = some (.unknownKind field (codeOfBody body)) := by
  simp [commandOfBody, hvoid, hclass]

/-- The code of a body is the quotient of its first byte by 8. -/
theorem codeOfBody_toNat (body : List Byte) : (codeOfBody body).toNat = (body.headD 0).toNat / 8 := by
  have hlt := (body.headD 0).isLt
  rw [codeOfBody, BitVec.extractLsb'_toNat, Nat.shiftRight_eq_div_pow]
  omega

/-- The codes of each class; a code of no class is 0 or at least 20. -/
theorem classOfKind_cases (code : BitVec 5) : (classOfKind code = none ∧ (code.toNat = 0 ∨ 20 ≤ code.toNat))
    ∨ (classOfKind code = some 0 ∧ code.toNat ∈ [1, 2]) ∨ (classOfKind code = some 1 ∧ code.toNat ∈ [3, 4, 5])
    ∨ (classOfKind code = some 2 ∧ code.toNat ∈ [6, 7, 8, 9, 10, 11, 12, 13, 14])
    ∨ (classOfKind code = some 3 ∧ code.toNat ∈ [15, 16, 17, 18]) ∨ (classOfKind code = some 4 ∧ code.toNat = 19) := by
  revert code; decide

/-! ## Payloads -/

theorem claimFields_encodePayload (stream : Stream) (kind : Kind) (start : SlotNo) :
    claimFields (encodePayload (.claim stream kind start)) = some (stream, kind, start) := by
  have hkind : (BitVec.ofNat 8 (Kind.code kind)).toNat = Kind.code kind := toNat_byte (by have := Kind.code_lt kind; omega)
  have hstart : (BitVec.ofNat 8 start.val).toNat = start.val := toNat_byte (by omega)
  simp [claimFields, encodePayload, decodeStream_encodeStream, hkind, hstart, -BitVec.toNat_ofNat]

theorem releaseField_encodePayload (stream : Stream) : releaseField (encodePayload (.release stream)) = some stream := by
  simp [releaseField, encodePayload, decodeStream_encodeStream]

theorem encodeZoneRecord_length (r : ZoneRecord) : (encodeZoneRecord r).length = 4 := rfl

theorem zoneStateFields_encodePayload {records : Vector ZoneRecord 4} (h : ∀ z : Zone, (records[z]).wf) :
    zoneStateFields (encodePayload (.zoneState records)) = some records := by
  obtain ⟨⟨l⟩, hl⟩ := records
  match l, hl with
  | [r0, r1, r2, r3], _ =>
    have h0 := zoneStateRecord_encoded (r := r0) (h 0) [] (encodeZoneRecord r1 ++ (encodeZoneRecord r2 ++ encodeZoneRecord r3))
    have h1 := zoneStateRecord_encoded (r := r1) (h 1) (encodeZoneRecord r0) (encodeZoneRecord r2 ++ encodeZoneRecord r3)
    have h2 := zoneStateRecord_encoded (r := r2) (h 2) (encodeZoneRecord r0 ++ encodeZoneRecord r1) (encodeZoneRecord r3)
    have h3 := zoneStateRecord_encoded (r := r3) (h 3) (encodeZoneRecord r0 ++ (encodeZoneRecord r1 ++ encodeZoneRecord r2)) []
    simp only [List.append_assoc, List.append_nil, List.nil_append, List.length_append, List.length_nil, encodeZoneRecord_length, Nat.reduceAdd]
      at h0 h1 h2 h3
    have hp : encodePayload (.zoneState ⟨⟨[r0, r1, r2, r3]⟩, rfl⟩) =
        encodeZoneRecord r0 ++ (encodeZoneRecord r1 ++ (encodeZoneRecord r2 ++ encodeZoneRecord r3)) := rfl
    simp only [zoneStateFields, hp, h0, h1, h2, h3]
    rfl

theorem announcementOfByte_encoded (o : Announcement) :
    announcementOfByte (BitVec.ofNat 8 (16 * encodeRole o.role + Health.code o.health)) = some o := by
  have hrole := encodeRole_lt o.role
  have hhealth := Health.code_lt o.health
  have hr : (16 * encodeRole o.role + Health.code o.health) / 2 ^ 4 % 2 ^ 4 = encodeRole o.role := by omega
  have hh : (16 * encodeRole o.role + Health.code o.health) / 2 ^ 0 % 2 ^ 4 = Health.code o.health := by omega
  simp only [announcementOfByte, toNat_extract_byte (show 16 * encodeRole o.role + Health.code o.health < 256 by omega), hr, hh,
    roleOfCode_encodeRole, healthOfCode_code]
  rfl

/-- The three kinds of the last byte of a PRESENCE. -/
theorem kinds_encoded (a b t : Option Kind) {n : Nat} (hn : n = 16 * encodeAnnouncedKind a + 4 * encodeAnnouncedKind b + encodeAnnouncedKind t) :
    ((BitVec.ofNat 8 n).extractLsb' 4 2).toNat = encodeAnnouncedKind a ∧ ((BitVec.ofNat 8 n).extractLsb' 2 2).toNat = encodeAnnouncedKind b ∧
      ((BitVec.ofNat 8 n).extractLsb' 0 2).toNat = encodeAnnouncedKind t := by
  have ha := encodeAnnouncedKind_lt a
  have hb := encodeAnnouncedKind_lt b
  have ht := encodeAnnouncedKind_lt t
  simp only [toNat_extract_byte (show n < 256 by omega)]
  refine ⟨?_, ?_, ?_⟩ <;> omega

theorem presenceFields_encodePayload (content : PresenceContent) : presenceFields (encodePayload (.presence content)) = some content := by
  obtain ⟨zone, mode, configInvalid, joining, ⟨⟨l⟩, hl⟩, kindA, kindB, kindT⟩ := content
  match l, hl with
  | [o0, o1, o2, o3], _ =>
    have hzone : zoneOfByte (BitVec.ofNat 8 zone.val) = some zone := by
      simp [zoneOfByte, toNat_byte (show zone.val < 256 by omega), -BitVec.toNat_ofNat]
    have hmode : (BitVec.ofNat 8 (Mode.code mode)).toNat = Mode.code mode := toNat_byte (by have := Mode.code_lt mode; omega)
    obtain ⟨hinvalid, hjoining⟩ := flags_low configInvalid joining
    obtain ⟨hA, hB, hT⟩ := kinds_encoded kindA kindB kindT rfl
    simp [presenceFields, encodePayload, hzone, hmode, hinvalid, hjoining, announcementOfByte_encoded, hA, hB, hT, -BitVec.toNat_ofNat,
      -BitVec.getLsbD_eq_getElem, -BitVec.extractLsb'_toNat]

end Sys2Proof.Machine

namespace Sys2Proof.Proofs

open Sys2Proof.Machine

/-- Settles O60: each reader undoes its encoder, field by field; a body of no kind, or of a class not its kind's, has no command of its own. -/
theorem sentFormatsAreRead : Obligations.SentFormatsAreRead := by
  unfold Obligations.SentFormatsAreRead
  refine ⟨fun m hd => readMark_encodeMark hd, fun h data slot => readSlot_encodeSlot, fun m => bodyIsVoid_encodeBody, ?_, ?_,
    claimFields_encodePayload, releaseField_encodePayload, fun records => zoneStateFields_encodePayload, presenceFields_encodePayload⟩
  · intro m sender h
    rw [commandOfBody_encodeBody h]
    cases m <;> rfl
  · intro field body hvoid code cls hcode
    have htoNat : (codeOfBody body).toNat = code := codeOfBody_toNat body
    have hfield : codeOfBody body = BitVec.ofNat 5 code := by rw [← htoNat, BitVec.ofNat_toNat, BitVec.setWidth_eq]
    rw [← hfield]
    apply commandOfBody_unknown hvoid
    intro hclass
    have hcases := classOfKind_cases (codeOfBody body)
    rw [hclass, htoNat] at hcases
    simp only [List.mem_cons, List.not_mem_nil, or_false, Option.some.injEq, reduceCtorEq, false_and, false_or] at hcases hcode
    omega

end Sys2Proof.Proofs
end

section
/-! Proofs about what a round begin reads and presents (R1 to R4, R36, R69 to R73): what it leaves of the presentation at its end, and that the
presentation is the one that the statement names. -/

namespace Sys2Proof.Machine

/-! ## What a presentation leaves stands to the end of the round begin -/

/-- From one state to another the frame and PROGRAM_LOST stand. -/
structure State.SameShow (s t : State) : Prop where
  frame : t.mm.frame = s.mm.frame
  programLost : t.cr.holds .programLost = s.cr.holds .programLost

theorem State.SameShow.refl (s : State) : s.SameShow s := ⟨rfl, rfl⟩

theorem State.SameShow.trans {s t u : State} (h : s.SameShow t) (k : t.SameShow u) : s.SameShow u :=
  ⟨k.frame.trans h.frame, k.programLost.trans h.programLost⟩

theorem State.SameShow.of_eq {s t : State} (hmm : t.mm = s.mm) (hcr : t.cr = s.cr) : s.SameShow t := ⟨by rw [hmm], by rw [hcr]⟩

theorem State.checkDecoder_sameShow (s : State) : s.SameShow s.checkDecoder :=
  ⟨State.rebuildIf_mm_frame _ _, s.checkDecoder_programLost⟩

theorem State.inputRound_sameShow (s : State) (id : InputId) (heard : InputRound) (l : LocalRound) : s.SameShow (s.inputRound id heard l) := by
  refine ⟨by simp, ?_⟩
  simp only [State.inputRound]
  split
  · exact s.putInput_programLost _ _
  · rfl

theorem State.recoverAt_programLost (s : State) (n : OutputNo) (begins : Nat) :
    (s.recoverAt n begins).cr.holds .programLost = s.cr.holds .programLost := by
  have hcleared : ((s.setOutput n ((s.om.outputs[n]).toRest s.isActive)).setCondition (.outputFaulted n) false).announce.cr.holds .programLost =
      s.cr.holds .programLost := State.setCondition_programLost _ (by simp) _
  simp only [State.recoverAt, State.endRecovery, State.setOutput_frame, State.evalGo_programLost]
  split
  · rw [State.countFault_programLost]
    exact hcleared
  · exact hcleared

theorem State.recoveryStep_programLost (s : State) (n : OutputNo) : (s.recoveryStep n).cr.holds .programLost = s.cr.holds .programLost := by
  simp only [State.recoveryStep]
  (repeat' split)
  · rfl
  · exact s.recoverAt_programLost n 1
  · rfl

theorem State.outputRound_sameShow (s : State) : s.SameShow s.outputRound :=
  ⟨by simp, State.eachOutput_programLost State.recoveryStep_programLost _⟩

/-- Entry to a mode of a station that holds no target shows what it showed. -/
theorem State.enterMode_sameShow {s : State} (h : s.sr.target = none) (old : Mode) : s.SameShow (s.enterMode old) := by
  have hawake : (if old == .standby then s.wake else s).mm = s.mm := by split <;> simp
  have heach (f : State → OutputNo → State) (hf : ∀ x n, (f x n).mm = x.mm) (x : State) : (x.eachOutput f).mm = x.mm :=
    State.eachOutput_keeps (P := fun y => y.mm = x.mm) rfl fun y n hy => (hf y n).trans hy
  have hasleep : s.fallsAsleep.switchIfDown = s.fallsAsleep := State.switchIfDown_none (by simpa [State.fallsAsleep, State.eachOutput] using h)
  refine ⟨?_, ?_⟩
  · cases hm : s.pt.mode with
    | joining => simp only [State.enterMode, hm]
    | active =>
      simp only [State.enterMode, hm, State.evalGo_mm]
      rw [(State.checkDecoder_sameShow _).frame, heach _ (by simp), hawake]
    | serving =>
      simp only [State.enterMode, hm, State.evalGo_mm]
      rw [(State.checkDecoder_sameShow _).frame, heach _ (by simp), hawake]
    | standby =>
      have hentered : s.enterMode old = s.fallsAsleep.switchIfDown.evalGo := by simp only [State.enterMode, hm, State.fallsAsleep]
      rw [hentered, hasleep, State.evalGo_mm, State.fallsAsleep, State.stopTuner_mm, (State.checkDecoder_sameShow _).frame]
      simp [State.eachOutput]
  · rcases s.enterMode_programLost old with hsame | hdown
    · exact hsame
    · rw [hdown, hasleep, s.fallsAsleep_programLost]

theorem State.changeMode_sameShow {s : State} (h : s.sr.target = none) (m : Mode) : s.SameShow (s.changeMode m) := by
  simp only [State.changeMode]
  split
  · exact .refl s
  · have hannounced : s.SameShow { s with pt := { s.pt with mode := m } }.announce := .of_eq rfl rfl
    exact hannounced.trans (State.enterMode_sameShow (by simpa using h) _)

theorem State.settle_sameShow (s : State) (src : Source) (b : Bool) : s.SameShow (s.settle src b) :=
  ⟨by simp, s.settle_holds src b _ (by simp)⟩

theorem State.joinRound_sameShow {s : State} (h : s.sr.target = none) : s.SameShow s.joinRound := by
  simp only [State.joinRound]
  (repeat' split)
  · have hclosed : s.SameShow s.closeWindow := .of_eq rfl rfl
    have hentered := hclosed.trans (State.changeMode_sameShow (s := s.closeWindow) h s.closeWindow.derivedMode)
    simp only [State.endWindow, State.eachSource]
    exact ((hentered.trans (State.settle_sameShow _ _ _)).trans (State.settle_sameShow _ _ _)).trans (State.settle_sameShow _ _ _)
  · exact .of_eq rfl rfl
  · exact .refl s

/-- A round begin between the inputs' steps and the outputs' own shows what it showed. -/
theorem State.beforeOutputs_eq {s : State} (r : RoundBegin) (h : s.sr.target = none) :
    s.SameShow (s.beforeOutputs r) ∧ (s.beforeOutputs r).pd = s.pd ∧ (s.beforeOutputs r).sr.target = none := by
  have hdown : ((s.eachSource State.offerAgain).evalGo).switchIfDown = (s.eachSource State.offerAgain).evalGo :=
    State.switchIfDown_none (by simpa [State.eachSource] using h)
  have hramped : ((s.eachSource State.offerAgain).evalGo).rampRound = ((s.eachSource State.offerAgain).evalGo).rampStep :=
    State.switchIfDown_none (by simpa [State.eachSource] using h)
  simp only [State.beforeOutputs, hdown, hramped]
  split
  · exact ⟨.of_eq (by simp [State.eachSource]) (by simp [State.eachSource]), by simp [State.eachSource], by simpa [State.eachSource] using h⟩
  · exact ⟨.of_eq (by simp [State.eachSource]) (by simp [State.eachSource]), by simp [State.eachSource], by simpa [State.eachSource] using h⟩

/-- The state that a round begin leaves at its presentation. -/
def State.presented (s : State) (r : RoundBegin) : State := (s.beforePresentation r).receiverRound s.rt.adoptedD

/-- Where no target is held, no ramp that a round begin ends releases a switch. -/
theorem State.heardRound_eq {s : State} (r : RoundBegin) (h : s.sr.target = none) : s.heardRound r = s.beforePresentation r := by
  simp only [State.heardRound, State.beforePresentation, State.rampRound]
  rw [State.switchIfDown_none (by simpa using h)]

/-- What stands of a presentation at the end of the event: the receiver but for the gathered slots, the frame, PROGRAM_LOST, and outside the join window
the decoder. -/
structure State.Shown (mode : Mode) (y t : State) : Prop where
  sr : t.sr = { y.sr with gathered := [] }
  frame : t.mm.frame = y.mm.frame
  programLost : t.cr.holds .programLost = y.cr.holds .programLost
  pd : mode ≠ .joining → t.pd = y.pd

theorem State.roundBegin_shown {s : State} (r : RoundBegin) (h : s.sr.target = none) :
    State.Shown s.pt.mode (s.presented r) (s.roundBegin r).closeEvent := by
  have htarget : (s.presented r).sr.target = none := by
    rw [State.presented, State.receiverRound_target, State.beforePresentation]
    split <;> simpa using h
  have hinputs : (s.presented r).SameShow (s.beforeTuner r) := by
    simp only [State.beforeTuner, s.heardRound_eq r h]
    exact (State.inputRound_sameShow _ _ _ _).trans (State.inputRound_sameShow _ _ _ _)
  have htuned : (s.presented r).SameShow ((s.beforeTuner r).tunerRound r.frontEnd r.demodulated) := hinputs.trans (.of_eq (by simp) (by simp))
  have hkept : ((s.beforeTuner r).tunerRound r.frontEnd r.demodulated).sr = (s.presented r).sr
      ∧ ((s.beforeTuner r).tunerRound r.frontEnd r.demodulated).pd = (s.presented r).pd := by
    simp [State.beforeTuner, s.heardRound_eq r h, State.presented]
  obtain ⟨hsr, hpd⟩ := hkept
  obtain ⟨hevaluated, hevaluatedPd, hevaluatedTarget⟩ := State.beforeOutputs_eq (s := (s.beforeTuner r).tunerRound r.frontEnd r.demodulated) r
    (by rw [hsr]; exact htarget)
  have houtputs := (htuned.trans hevaluated).trans (State.outputRound_sameShow _)
  have hjoined := houtputs.trans (State.joinRound_sameShow (s := (s.atOutputs r).outputRound) (by simpa [State.atOutputs] using hevaluatedTarget))
  have hclosed : (s.presented r).SameShow (s.roundBegin r).closeEvent := by
    rw [State.roundBegin_atOutputs]
    exact ⟨by simpa using hjoined.frame, by simpa [State.closeEvent_holds] using hjoined.programLost⟩
  refine ⟨?_, hclosed.frame, hclosed.programLost, fun hmode => ?_⟩
  · simp only [State.closeEvent_frame]
    exact s.roundBegin_sr r h
  · have hstands : (s.atOutputs r).outputRound.joinRound = (s.atOutputs r).outputRound :=
      State.joinRound_stands (by simpa [(s.atOutputs_keeps r).2] using hmode)
    rw [State.roundBegin_atOutputs, hstands]
    simp only [State.closeEvent_frame, State.presenceRound_frame, State.sourceClose_frame, State.outputRound_frame]
    exact hevaluatedPd.trans hpd

/-! ## What is presented (R69 to R71) -/

/-- The state that a round begin presents is the state before it, as far as a presentation reads it. -/
structure State.Heard (s x : State) : Prop where
  sr : x.sr = s.sr
  pd : x.pd = s.pd
  cl : x.cl = s.cl
  own : x.ownRecord = s.ownRecord

theorem State.beforePresentation_heard (s : State) (r : RoundBegin) : s.Heard (s.beforePresentation r) := by
  simp only [State.beforePresentation]
  split <;> exact ⟨by simp, by simp, by simp, by simp [State.ownRecord, State.ownZone]⟩

theorem State.dropForD_dropsRing {s x t : State} (hx : s.Heard x) (ht : State.Shown s.pt.mode x.dropForD.silentFrame t) : s.dropsRing t := by
  have hpd : x.dropForD.silentFrame.pd = s.pd := by simp [State.silentFrame, hx.pd]
  refine ⟨ht.frame, fun hmode => (ht.pd hmode).trans hpd, ?_⟩
  have hsr := ht.sr
  have hlost := ht.programLost
  rw [State.silentFrame_sr] at hsr
  by_cases hidle : s.sr.state = .idle
  · rw [if_pos hidle]
    simpa [State.dropForD, hx.sr, hidle] using hsr
  · rw [if_neg hidle]
    refine ⟨by simpa [State.dropForD, hx.sr, hidle] using hsr, hlost.trans ?_⟩
    simp [State.dropForD, hx.sr, hidle, State.silentFrame, State.setCondition, Conditions.put_holds]

/-- A PCM2 entry in RUNNING plays its pairs, or silence (R70, R116). -/
theorem State.presentReceived_pcm2 {y : State} {e : RingEntry} (h : e.kind = some .pcm2) :
    (y.presentReceived e).mm.frame = pcmFrame y.ownRecord.listening (if e.status = .valid then pairsOf e else silentPairs) := by
  have hown : ({ y with sr := { y.sr with watchdog := 0 } }.takeKind e.kind).ownRecord = y.ownRecord := by simp [State.ownRecord, State.ownZone]
  by_cases hvalid : e.status = .valid
  · rw [if_pos hvalid, ← hown]
    simp only [State.presentReceived, h, hvalid]
    rfl
  · rw [if_neg hvalid, ← hown]
    simp only [State.presentReceived, h]
    rfl

/-- What a PACKED entry hands to the decoder. -/
def RingEntry.handed (e : RingEntry) : Handed := if e.status = .valid then .block (blockOf e) else .muted

/-- A PACKED entry of a PACKED program is handed to the decoder (R70, R106). -/
theorem State.presentReceived_packed {y : State} {e : RingEntry} (h : e.kind = some .packed) (hprogram : y.sr.programKind = some .packed) :
    (y.presentReceived e).mm.frame = (y.pd.onHanded e.handed).frame ∧ (y.presentReceived e).pd = (y.pd.onHanded e.handed).decoder := by
  have hsame : { y with sr := { y.sr with watchdog := 0 } }.takeKind e.kind = { y with sr := { y.sr with watchdog := 0 } } :=
    if_pos (by simp [h, hprogram])
  have hdecoded : y.presentReceived e = State.decode { y with sr := { y.sr with watchdog := 0 } } e.handed := by
    rw [State.presentReceived, hsame, h, RingEntry.handed]
    cases e.status <;> rfl
  rw [hdecoded]
  exact ⟨State.decode_mm_frame _ _, State.decode_pd _ _⟩

/-- The state that presents an entry, as far as the hand-over reads it: FILLING may have brought RUNNING first. -/
structure State.Hands (s y : State) : Prop where
  kind : y.sr.programKind = s.sr.programKind
  pairs : y.sr.lastPairs = s.sr.lastPairs
  pd : y.pd = s.pd
  own : y.ownRecord = s.ownRecord

theorem State.presentReceived_handsOn {s y t : State} {e : RingEntry} (hy : s.Hands y) (ht : State.Shown s.pt.mode (y.presentReceived e) t) :
    s.handsOn t e := by
  have hsr := ht.sr
  rw [State.presentReceived_sr] at hsr
  refine ⟨by rw [hsr], fun hkind => ?_, fun hkind => ⟨?_, fun hprogram => ?_⟩⟩
  · have hpairs : t.sr.lastPairs = if e.status = .valid then pairsOf e else silentPairs := by rw [hsr]; simp [hkind]
    refine ⟨hpairs, ?_⟩
    rw [ht.frame, State.presentReceived_pcm2 hkind, hpairs, hy.own]
  · rw [hsr]
    simp [hkind, hy.pairs]
  · obtain ⟨hframe, hpd⟩ := State.presentReceived_packed hkind (hy.kind.trans hprogram)
    rw [hy.pd] at hframe hpd
    refine ⟨ht.frame.trans ?_, fun hmode => (ht.pd hmode).trans ?_⟩
    · rw [State.decode_mm_frame]; exact hframe
    · rw [State.decode_pd]; exact hpd

/-- What a MISSING round plays (R70). -/
theorem State.presentMissing_mm_frame (s : State) : s.presentMissing.mm.frame =
    match s.sr.programKind with
    | some .pcm2 => pcmFrame s.ownRecord.listening (if s.sr.watchdog = 0 then s.sr.lastPairs else silentPairs)
    | some .packed => (s.pd.onHanded (.block none)).frame
    | none => Frame.silence := by
  simp only [State.presentMissing]
  cases s.sr.programKind with
  | none => rfl
  | some k =>
    cases k with
    | pcm2 => by_cases h : s.sr.watchdog = 0 <;> simp [State.playPairs, h]
    | packed => exact State.decode_mm_frame _ _

theorem State.presentMissing_missesRound {s x t : State} (hx : s.Heard x) (hrunning : s.sr.state = .running)
    (ht : State.Shown s.pt.mode x.presentMissing.countMissing t) : s.missesRound t := by
  have hsr := ht.sr
  have hmissing := x.presentMissing_sr
  have hcl : x.presentMissing.cl = s.cl := by simp [hx.cl]
  have hpd := x.presentMissing_pd
  rw [hx.sr] at hmissing
  rw [hx.sr, hx.pd] at hpd
  refine ⟨?_, fun hmode => ?_, ?_⟩
  · rw [hsr, State.countMissing_sr, hmissing, hcl]
    by_cases hfires : s.cl.values.watchdogLimit ≤ s.sr.watchdog + 1
    · simp [hfires]
    · simp [hfires, hrunning]
  · rw [ht.pd hmode, State.decode_pd, ← hpd]
    simp
  · have hframe := x.presentMissing_mm_frame
    rw [hx.sr, hx.pd, hx.own] at hframe
    have hshown := ht.frame
    have hlost := ht.programLost
    simp only [State.countMissing, hcl, hmissing] at hshown hlost
    split
    next hfires =>
      rw [if_pos hfires] at hshown hlost
      exact ⟨hshown.trans (State.fireWatchdog_frame_silent _), hlost.trans (by rw [State.fireWatchdog_cr, Conditions.put_holds])⟩
    next hfires =>
      rw [if_neg hfires] at hshown
      rw [hshown]
      simp only [State.decode_mm_frame]
      exact hframe

/-- A station whose clock is LOCKED or in HOLDOVER, and whose receiver holds no lead that waits for a later presentation. -/
theorem State.leads_iff (s : State) (round : RoundNo) :
    (s.sr.leads round && (s.rt.discipline == .locked || s.rt.discipline == .holdover)) = true ↔
      (∀ r, s.sr.lead = some r → roundBefore round r = false) ∧ (s.rt.discipline = .locked ∨ s.rt.discipline = .holdover) := by
  cases h : s.sr.lead <;> simp [Receiver.leads, h]

/-- The presentation of a round, by the state of the receiver. -/
def State.presentRound (s : State) (round : RoundNo) : State :=
  match s.sr.state with
  | .idle => s.silentFrame
  | .lost => s.silentFrame
  | .filling => s.presentFilling round (s.sr.entryFor round)
  | .running => s.presentRunning (s.sr.entryFor round)

theorem State.present_eq (s : State) : s.present =
    match s.rt.roundNumber with
    | none => s.silentFrame
    | some m => s.presentRound (m - BitVec.ofNat 16 s.rt.adoptedD) := rfl

/-- An entry that is received is the entry of the ring. -/
theorem Receiver.entryFor_eq {sr : Receiver} {round : RoundNo} (h : (sr.entryFor round).received = true) :
    sr.entryFor round = sr.ring[ringIndex round] := by
  obtain ⟨hround, -⟩ := (sr.entryFor_received round).mp h
  exact if_pos (by simpa using hround)

/-- The tests of a presentation, on the state before it: the entry received is handed on. -/
def State.handsOver (s : State) (round : RoundNo) (discipline : Discipline) : Prop :=
  (s.sr.entryFor round).received = true ∧
    (s.sr.state = .running ∨ s.sr.state = .filling ∧
      ((∀ r, s.sr.lead = some r → roundBefore round r = false) ∧ (discipline = .locked ∨ discipline = .holdover)))

/-- A presentation that hands its entry on. -/
theorem State.presentsRound_of_handsOver {s t : State} {round : RoundNo} (h : s.handsOver round t.rt.discipline)
    (hhands : s.handsOn t (s.sr.entryFor round))
    (hsr : t.sr = { s.sr with
      state := .running, watchdog := 0, lead := if s.sr.state = .filling then none else s.sr.lead, programKind := t.sr.programKind,
      lastPairs := t.sr.lastPairs, gathered := [] }) : s.presentsRound t round := by
  obtain ⟨hreceived, hstate⟩ := h
  rw [Receiver.entryFor_eq hreceived] at hhands
  unfold State.presentsRound
  exact (if_pos ⟨(s.sr.entryFor_received round).mp hreceived, hstate⟩).mpr ⟨hhands, hsr⟩

/-- A presentation of a MISSING round in RUNNING. -/
theorem State.presentsRound_of_misses {s t : State} {round : RoundNo} (h : (s.sr.entryFor round).received = false) (hrunning : s.sr.state = .running)
    (hmisses : s.missesRound t) : s.presentsRound t round := by
  have hmissing : ¬(s.sr.ring[ringIndex round].round = some round ∧ s.sr.ring[ringIndex round].status ≠ .missing) := fun hr =>
    Bool.false_ne_true (h.symm.trans ((s.sr.entryFor_received round).mpr hr))
  unfold State.presentsRound
  exact (if_neg fun hc => hmissing hc.1).mpr ((if_pos hrunning).mpr hmisses)

/-- A presentation of silence. -/
theorem State.presentsRound_of_silent {s t : State} {round : RoundNo} (h : ¬s.handsOver round t.rt.discipline) (hrunning : s.sr.state ≠ .running)
    (hframe : t.mm.frame = Frame.silence) (hpd : s.pt.mode ≠ .joining → t.pd = s.pd)
    (hsr : t.sr = { s.sr with lead := if s.sr.state = .filling then s.sr.lead.filter (roundBefore round) else s.sr.lead, gathered := [] }) :
    s.presentsRound t round := by
  unfold State.presentsRound
  refine (if_neg fun hc => h ⟨(s.sr.entryFor_received round).mpr hc.1, hc.2⟩).mpr ((if_neg hrunning).mpr ⟨hframe, hpd, hsr⟩)

/-- A receiver that is neither FILLING nor RUNNING presents silence. -/
theorem State.silentFrame_presentsRound {s x t : State} (hx : s.Heard x) {round : RoundNo} (hfilling : s.sr.state ≠ .filling)
    (hrunning : s.sr.state ≠ .running) (ht : State.Shown s.pt.mode x.silentFrame t) : s.presentsRound t round := by
  have hsr := ht.sr
  rw [State.silentFrame_sr, hx.sr] at hsr
  refine State.presentsRound_of_silent ?_ hrunning ht.frame (fun hmode => (ht.pd hmode).trans hx.pd) ?_
  · rintro ⟨-, hstate | ⟨hstate, -⟩⟩
    · exact hrunning hstate
    · exact hfilling hstate
  · rw [if_neg hfilling]
    exact hsr

theorem State.presentFilling_presentsRound {s x t : State} (hx : s.Heard x) (hdiscipline : t.rt.discipline = x.rt.discipline) {round : RoundNo}
    (hfilling : s.sr.state = .filling) (ht : State.Shown s.pt.mode (x.presentFilling round (x.sr.entryFor round)) t) : s.presentsRound t round := by
  have hleads := x.leads_iff round
  rw [← hdiscipline, hx.sr] at hleads
  simp only [State.presentFilling, hx.sr, Bool.and_assoc, ← hdiscipline] at ht
  by_cases hlead : ((s.sr.entryFor round).received && (s.sr.leads round && (t.rt.discipline == .locked || t.rt.discipline == .holdover))) = true
  · rw [if_pos hlead] at ht
    obtain ⟨hreceived, hled⟩ := Bool.and_eq_true_iff.mp hlead
    simp only [State.presentRunning, hreceived, if_true] at ht
    have hsr := ht.sr
    rw [State.presentReceived_sr] at hsr
    refine State.presentsRound_of_handsOver ⟨hreceived, .inr ⟨hfilling, hleads.mp hled⟩⟩ (State.presentReceived_handsOn ?_ ht) ?_
    · exact ⟨rfl, rfl, hx.pd, hx.own⟩
    · rw [if_pos hfilling, hsr]
      rfl
  · rw [if_neg hlead] at ht
    have hrunning : s.sr.state ≠ .running := by simp [hfilling]
    refine State.presentsRound_of_silent ?_ hrunning ht.frame (fun hmode => (ht.pd hmode).trans hx.pd) ?_
    · rintro ⟨hreceived, hstate | ⟨-, hled⟩⟩
      · exact hrunning hstate
      · exact hlead (Bool.and_eq_true_iff.mpr ⟨hreceived, hleads.mpr hled⟩)
    · rw [if_pos hfilling]
      exact ht.sr

theorem State.presentRunning_presentsRound {s x t : State} (hx : s.Heard x) {round : RoundNo}
    (hrunning : s.sr.state = .running) (ht : State.Shown s.pt.mode (x.presentRunning (x.sr.entryFor round)) t) : s.presentsRound t round := by
  simp only [State.presentRunning, hx.sr] at ht
  by_cases hreceived : (s.sr.entryFor round).received = true
  · rw [if_pos hreceived] at ht
    have hsr := ht.sr
    rw [State.presentReceived_sr, hx.sr] at hsr
    have hfilling : s.sr.state ≠ .filling := by simp [hrunning]
    refine State.presentsRound_of_handsOver ⟨hreceived, .inl hrunning⟩ (State.presentReceived_handsOn ?_ ht) ?_
    · exact ⟨by rw [hx.sr], by rw [hx.sr], hx.pd, hx.own⟩
    · rw [if_neg hfilling, hsr, ← hrunning]
  · rw [if_neg hreceived] at ht
    exact State.presentsRound_of_misses (Bool.eq_false_iff.mpr hreceived) hrunning (State.presentMissing_missesRound hx hrunning ht)

theorem State.presentRound_presentsRound {s x t : State} (hx : s.Heard x) (hdiscipline : t.rt.discipline = x.rt.discipline) (round : RoundNo)
    (ht : State.Shown s.pt.mode (x.presentRound round) t) : s.presentsRound t round := by
  cases hstate : s.sr.state with
  | idle | lost =>
    simp only [State.presentRound, hx.sr, hstate] at ht
    exact State.silentFrame_presentsRound hx (by simp [hstate]) (by simp [hstate]) ht
  | filling =>
    have hpresents : x.presentRound round = x.presentFilling round (x.sr.entryFor round) := by simp only [State.presentRound, hx.sr, hstate]
    exact State.presentFilling_presentsRound hx hdiscipline hstate (hpresents ▸ ht)
  | running =>
    have hpresents : x.presentRound round = x.presentRunning (x.sr.entryFor round) := by simp only [State.presentRound, hx.sr, hstate]
    exact State.presentRunning_presentsRound hx hstate (hpresents ▸ ht)

/-! ## The whole round begin -/

theorem State.beforePresentation_rt (s : State) (r : RoundBegin) :
    (s.beforePresentation r).rt = s.rt.hear s.own s.mayMark (readMark r.sender r.body) r.elapsed := by
  simp only [State.beforePresentation]
  split <;> simp [State.clockRound, State.own, State.mayMark]

theorem State.roundBegin_hears (s : State) (r : RoundBegin) :
    (s.rt.hear s.own s.mayMark (readMark r.sender r.body) r.elapsed).SameClock (s.roundBegin r).closeEvent.rt := by
  rw [(State.closeEvent_frame _).1]
  exact s.roundBegin_clock r

/-- A changed D drops the ring (R73). -/
theorem State.roundBegin_drops {s t : State} {r : RoundBegin} (ht : State.Shown s.pt.mode (s.presented r) t)
    (hclock : (s.beforePresentation r).rt.SameClock t.rt) (hd : t.rt.adoptedD ≠ s.rt.adoptedD) : s.dropsRing t := by
  obtain ⟨-, -, -, -, -, hadopted, -⟩ := RoundTimer.SameClock.fields _ _ hclock
  rw [State.presented, State.receiverRound, ← hadopted, if_neg (by simpa using hd)] at ht
  exact State.dropForD_dropsRing (s.beforePresentation_heard r) ht

/-- Where D stands, the presentation is the one of the round number heard. -/
theorem State.presented_of_number {s t : State} {r : RoundBegin} (hclock : (s.beforePresentation r).rt.SameClock t.rt)
    (hd : t.rt.adoptedD = s.rt.adoptedD) :
    (t.rt.roundNumber = none → s.presented r = (s.beforePresentation r).silentFrame) ∧
      ∀ m, t.rt.roundNumber = some m → s.presented r = (s.beforePresentation r).presentRound (m - BitVec.ofNat 16 t.rt.adoptedD) := by
  obtain ⟨-, -, hnumber, -, -, hadopted, -⟩ := RoundTimer.SameClock.fields _ _ hclock
  rw [State.presented, State.receiverRound, ← hadopted, if_pos (by simpa using hd), State.present_eq, ← hadopted, ← hnumber]
  exact ⟨fun hm => by rw [hm], fun m hm => by rw [hm]⟩

/-- Without a round number a round begin presents silence. -/
theorem State.roundBegin_presents_none {s t : State} {r : RoundBegin} (ht : State.Shown s.pt.mode (s.presented r) t)
    (hclock : (s.beforePresentation r).rt.SameClock t.rt) (hd : t.rt.adoptedD = s.rt.adoptedD) (hm : t.rt.roundNumber = none) :
    t.mm.frame = Frame.silence ∧ t.sr = { s.sr with gathered := [] } := by
  rw [(State.presented_of_number hclock hd).1 hm] at ht
  have hsr := ht.sr
  rw [State.silentFrame_sr, (s.beforePresentation_heard r).sr] at hsr
  exact ⟨ht.frame, hsr⟩

/-- With one it presents the entry for m-D (R69). -/
theorem State.roundBegin_presents_some {s t : State} {r : RoundBegin} (ht : State.Shown s.pt.mode (s.presented r) t)
    (hclock : (s.beforePresentation r).rt.SameClock t.rt) (hd : t.rt.adoptedD = s.rt.adoptedD) {m : RoundNo} (hm : t.rt.roundNumber = some m) :
    s.presentsRound t (m - BitVec.ofNat 16 t.rt.adoptedD) := by
  obtain ⟨-, -, -, -, -, -, hdiscipline, -⟩ := RoundTimer.SameClock.fields _ _ hclock
  rw [(State.presented_of_number hclock hd).2 m hm] at ht
  exact State.presentRound_presentsRound (s.beforePresentation_heard r) hdiscipline _ ht

/-- The round timer at the end of a round begin: what it heard of the mark, and the capture (R1 to R4). -/
theorem RoundTimer.SameClock.heard {rt t : RoundTimer} {own : Station} {mayMark : Bool} {mark : Option MarkFields} {elapsed : Nat}
    (h : (rt.hear own mayMark mark elapsed).SameClock t) :
    t.counter = rt.counter + BitVec.ofNat 32 (rt.interval own mark elapsed) ∧ t.prevCapture = some t.counter
      ∧ t.roundNumber = numberAfter rt.roundNumber mark ∧ t.adoptedD = delayAfter rt.adoptedD mark
      ∧ t.roundBegun = true ∧ t.outgoing = none ∧ t.lostAsSender = false := by
  obtain ⟨hcounter, hcapture, hnumber, -, houtgoing, hadopted, -, -, -, -, hbegun, -, hlost⟩ := RoundTimer.SameClock.fields _ _ h
  rw [hcapture, hcounter]
  exact ⟨rfl, rfl, hnumber, hadopted, hbegun, houtgoing, hlost⟩

theorem RoundTimer.SameClock.heard_sender {rt t : RoundTimer} {own : Station} {mayMark : Bool} {mark : Option MarkFields} {elapsed : Nat}
    (h : (rt.hear own mayMark mark elapsed).SameClock t) :
    (∀ m, mark = some m → t.currentSender = some m.sender) ∧ (mark = none → t.currentSender = rt.currentSender) := by
  obtain ⟨-, -, -, hsender, -⟩ := RoundTimer.SameClock.fields _ _ h
  rw [hsender]
  exact ⟨fun m hm => by rw [hm]; rfl, fun hm => by rw [hm]; rfl⟩

/-- The link controller at the end of a round begin. -/
theorem State.roundBegin_link (s : State) (r : RoundBegin) :
    (s.roundBegin r).closeEvent.lc.sendFlag = false ∧ (s.roundBegin r).closeEvent.lc.windowOpen = true
      ∧ (s.roundBegin r).closeEvent.lc.positions = 0 ∧ ∀ e ∈ (s.roundBegin r).closeEvent.lc.queue, e.inFlight = false := by
  have hoffers := State.closeEvent_offers _ (s.roundBegin_offers r)
  obtain ⟨hflag, hopen, hpositions, -⟩ := hoffers.flags
  exact ⟨hflag, hopen, hpositions, hoffers.grounded s.lc.beginRound_grounded⟩

theorem State.roundBegin_entries (s : State) (r : RoundBegin) : (s.roundBegin r).closeEvent.pt.entries = ageEntries s.pt.entries := by
  have hheard : (s.heardRound r).pt.entries = ageEntries s.pt.entries := by
    simp only [State.heardRound]
    split <;> simp [State.peerRound_entries]
  have htuned : (s.beforeTuner r).pt.entries = ageEntries s.pt.entries := by simp [State.beforeTuner, hheard]
  have houtputs : (s.atOutputs r).pt.entries = ageEntries s.pt.entries := by
    simp only [State.atOutputs, State.beforeOutputs]
    split <;> simp [State.eachSource, htuned]
  rw [State.roundBegin_atOutputs]
  simp [houtputs]

theorem State.roundBegin_records (s : State) (r : RoundBegin) : (s.roundBegin r).closeEvent.zt.records = s.zt.records := by
  have houtputs : (s.atOutputs r).zt.records = s.zt.records := by
    simp only [State.atOutputs, State.beforeOutputs, State.beforeTuner, State.heardRound]
    (repeat' split) <;> simp [State.eachSource]
  rw [State.roundBegin_atOutputs]
  simp [houtputs]

theorem State.roundBegin_changes (s : State) (r : RoundBegin) : ChangesOnly (modeParts ++ [.zt, .draws]) s (s.roundBegin r).closeEvent := by
  intro p hp
  cases p
  case st | sm | cl | rc | pins | pending => simp [State.same]
  all_goals exact absurd (by decide) hp

end Sys2Proof.Machine

namespace Sys2Proof.Proofs

open Sys2Proof.Machine

/-- Settles O3: the round timer that heard the mark, the link controller that began the round, and the presentation of the state between them, whose
frame, receiver and decoder stand to the end of the event. -/
theorem roundBeginReadsTheMark : Obligations.RoundBeginReadsTheMark := by
  intro r s hjoined
  obtain ⟨hflag, hopen, hpositions, hgrounded⟩ := s.roundBegin_link r
  have hheard := s.roundBegin_hears r
  have hclock := hheard
  rw [← State.beforePresentation_rt] at hclock
  obtain ⟨hcounter, hcapture, hnumber, hadopted, hbegun, houtgoing, hlost⟩ := hheard.heard
  obtain ⟨hsender, hdamaged⟩ := hheard.heard_sender
  have hentries := s.roundBegin_entries r
  have hshown := State.roundBegin_shown (s := s) r
  have hchanges := s.roundBegin_changes r
  have hrecords := s.roundBegin_records r
  have hexec := exec_roundBegin r hjoined
  generalize (s.roundBegin r).closeEvent = t at *
  refine ⟨t, hexec, ?_, hcapture, hcounter, hbegun, houtgoing, hlost, hflag, hopen, hpositions, hgrounded, fun k => ?_, fun htarget => ?_, hchanges,
    hrecords⟩
  · rw [hnumber, hadopted]
    cases hmark : readMark r.sender r.body with
    | none => exact ⟨hdamaged hmark, rfl, rfl⟩
    | some m => exact ⟨hsender m hmark, rfl, rfl⟩
  · rw [hentries]
    simp only [ageEntries, Fin.getElem_fin, Vector.getElem_map]
    rfl
  · split
    next hd => exact State.roundBegin_drops (hshown htarget) hclock hd
    next hd =>
      have hsame := not_not.mp hd
      split
      next m hm => exact State.roundBegin_presents_some (hshown htarget) hclock hsame hm
      next hm => exact State.roundBegin_presents_none (hshown htarget) hclock hsame hm

end Sys2Proof.Proofs
end
